-- ==== Sys2Proof/Word.lean ====
section
/-! DEFINITION. The word types of the block: bytes of memory, 32-bit register values and memory addresses
(spec/00_scope.md R7, R11; spec/20_memory.md R60). -/

namespace Sys2Proof

/-- An 8-bit channel value, payload byte or memory byte (10_state R41, 20_memory R60). -/
abbrev Byte := BitVec 8

/-- A 32-bit register value (00_scope R7, "register width"). -/
abbrev Word := BitVec 32

/-- A memory address: 32 bits, arithmetic modulo 2^32 (00_scope R7, `ADDR_W`). -/
abbrev Addr := BitVec 32

end Sys2Proof
end

