-- ==== Sys2Proof/Syntax.lean ====
section
/-! DEFINITION. The instruction set: the three command words of spec/30_encoding.md R97, one constructor per row of
spec/opcode_table.json. A command word has no operand fields (R96, R101). -/

namespace Sys2Proof

/-- A command a host can write to CMD (30_encoding R97). -/
inductive Instr where
  /-- NOP, 0x00000000 (42_host_access R171). -/
  | nop
  /-- EMBED, 0x00000001 (40_embed R110). -/
  | embed
  /-- EXTRACT, 0x00000002 (41_extract R135). -/
  | extract
  deriving DecidableEq, Repr

end Sys2Proof
end

