-- ==== Sys2Proof/WellFormed.lean ====
section
/-! DEFINITION. Well-formedness. A command carries no operand (spec/30_encoding.md R96, R101), so every instruction is
well formed; what can be ill formed is a 32-bit word offered as a command (10_state R23, 30_encoding R98). -/

namespace Sys2Proof

/-- A command has no field that could be out of range: "there are no sub-fields, no register fields and no immediates
in it" (30_encoding R96). -/
def Instr.wellFormed : Instr → Bool
  | .nop => true
  | .embed => true
  | .extract => true

/-- The legal command words (10_state R23): "0x00000000 (NOP), 0x00000001 (EMBED), 0x00000002 (EXTRACT); every other
value is reserved". -/
def legalCommand (w : Word) : Bool :=
  w == 0x00000000#32 || w == 0x00000001#32 || w == 0x00000002#32

end Sys2Proof
end

