-- ==== Sys2Proof/Decode.lean ====
section
/-! DEFINITION. The command decoder (spec/30_encoding.md R96 to R100): the whole 32-bit word is compared. Every word
decodes or is rejected by name. After it, the encoder. -/

namespace Sys2Proof

/-- Why a word is no command. -/
inductive DecodeError where
  /-- A reserved command word, 0x00000003 to 0xFFFFFFFF (30_encoding R98). -/
  | reserved (w : Word)
  deriving DecidableEq, Repr

/-- The command map (30_encoding R97), total on 32-bit words; a reserved word is rejected by name (R98). What the
machine does with a rejected word is 42_host_access R173, in `Machine.command`. -/
def decode (w : Word) : Except DecodeError Instr :=
  if w = 0x00000000#32 then .ok .nop
  else if w = 0x00000001#32 then .ok .embed
  else if w = 0x00000002#32 then .ok .extract
  else .error (.reserved w)

/-- The command word of an instruction (30_encoding R97). -/
def encode : Instr → Word
  | .nop => 0x00000000#32
  | .embed => 0x00000001#32
  | .extract => 0x00000002#32

/-- What the decoder reads from a table word of `nbits` bits. A command is exactly one 32-bit word (30_encoding R96,
R100), so a shorter word has zeros above and a longer one is no command. The word is a value on the register port: the
byte lanes of its transfer are the platform's (20_memory R67, 93_implementation_defined U3; log entry 13). -/
def decodeTableWord (nbits w : Nat) : Option Instr :=
  if nbits ≤ 32 then
    match decode (BitVec.ofNat 32 (w % 2 ^ nbits)) with
    | .ok i => some i
    | .error _ => none
  else none

end Sys2Proof
end

