-- ==== Sys2Proof/Config.lean ====
section
/-! DEFINITION. What the block's build and its platform fix (the OPEN parameters of spec/00_scope.md R7), the fixed
constants of the format, and the model's free value. The opaque constants have no body: no proof can use a value of
theirs. -/

namespace Sys2Proof

/-- A run of memory addresses: those `a` with `base ≤ a < base + size`. -/
structure Region where
  base : Nat
  size : Nat
  deriving DecidableEq, Repr

/-- The open parameters of 00_scope R7, carried as plain data in the state so that a step is a function of data alone
(log entry 2). No step changes them (00_scope R8, R36). -/
structure Platform where
  /-- `P_MAGIC`, 24 bits (00_scope R8), what the register MAGIC reads (10_state R36). That it is not 0 is the premise
  `State.MagicNotZero` of 00_scope R9. -/
  magic : BitVec 24
  /-- `REG_BASE`, the platform address of the register window (10_state R21). DESIGN CHOICE, log entry 18: the spec gives
  neither the width of a platform bus address nor an alignment of `REG_BASE`; here it is any natural number. -/
  regBase : Nat
  /-- The addresses that are NOT backed by ordinary memory: `BACKED(a)` is false exactly in these regions
  (20_memory R73). -/
  holes : List Region
  deriving DecidableEq, Repr

/-- `P_MAGIC`: the source gives no value (00_scope R8, 91_not_in_source N1). Statements that need it take the premise of
00_scope R9 that it is not 0 (`State.MagicNotZero`; log entry 2). -/
opaque Config.pMagic : BitVec 24

/-- `REG_BASE`: the platform's (10_state R21, 92_eei_decisions D9). -/
opaque Config.regBase : Nat

/-- Where the platform backs no memory (20_memory R73, 93_implementation_defined U4). -/
opaque Config.holes : List Region

/-- The platform of the machine after reset: all of it open. -/
def Config.platform : Platform :=
  { magic := Config.pMagic, regBase := Config.regBase, holes := Config.holes }

/-- The free value (log entry 9): which of the bytes the spec allows an access in a race or an early read gives
(93_implementation_defined U1, U8). It is applied to the counter `State.choices`; nothing constrains it. -/
opaque Config.pick : Nat → Nat

/-- `PREFIX_BITS = HDR_BITS + LEN_BITS = 24 + 16` (00_scope R7). -/
def Config.prefixBits : Nat := 40
/-- `MAX_LEN` (00_scope R7). -/
def Config.maxLen : Nat := 65535
/-- `ASCII_LIMIT` (00_scope R7). -/
def Config.asciiLimit : Nat := 128
/-- `PIXEL_STRIDE`: bytes per pixel (00_scope R7, 20_memory R62). -/
def Config.pixelStride : Nat := 3

end Sys2Proof
end

