-- ==== Sys2Proof/Machine/State.lean ====
section
/-! DEFINITION. The state of the machine as plain data: the register window and the engine state of spec/10_state.md,
the shared memory of spec/20_memory.md, the inputs of spec/00_scope.md R4, and the model's own fields for what the host
and the platform do (each with its log entry). Also the reasons to stop, and the state after reset (10_state R50). -/

namespace Sys2Proof.Machine

open Sys2Proof

/-- The engine phase (10_state R42). -/
inductive Phase where
  /-- No operation runs. -/
  | idle
  /-- EMBED: the length check (40_embed R112). -/
  | eLen
  /-- EMBED: the ASCII scan (40_embed R113). -/
  | eScan
  /-- EMBED: the capacity check (40_embed R114). -/
  | eCap
  /-- EMBED: the write phase (40_embed R115). -/
  | eWrite
  /-- EXTRACT's only phase (41_extract R137). -/
  | xBits
  deriving DecidableEq, Repr

/-- The result codes an operation can end with (60_exceptions R186). Codes 7 to 15 are never produced
(93_implementation_defined U10), so they have no constructor. -/
inductive Result where
  | ok
  | payloadTooLarge
  | nonAsciiPayload
  | insufficientCapacity
  | missingOrInvalidHeader
  | invalidPayloadEncoding
  | truncatedImage
  deriving DecidableEq, Repr

/-- CONFIG.TRUNC_MODE (10_state R28): 0 is `error`, 1 is `zeroFill`. -/
inductive TruncMode where
  | error
  | zeroFill
  deriving DecidableEq, Repr

/-- CONFIG.TEXT_MODE (10_state R28): 0 is `utf8`, 1 is `ascii`. -/
inductive TextMode where
  | utf8
  | ascii
  deriving DecidableEq, Repr

/-- The size of a register access on the slave port (42_host_access R166). -/
inductive AccessSize where
  | byte
  | half
  | word
  deriving DecidableEq, Repr

/-- What may happen next: a transaction of the host, an edge of `rst`, the platform completing a host write, or a turn
of the engine (20_memory R82; log entry 1). -/
inductive Event where
  /-- A register read at a byte offset in the window (42_host_access R165, `RD`). -/
  | regRead (off : BitVec 6) (size : AccessSize)
  /-- A register write at a byte offset in the window (42_host_access R165, `WR`). -/
  | regWrite (off : BitVec 6) (size : AccessSize) (v : Word)
  /-- A read at a platform address (42_host_access R178: the address REG_BASE + off), of no fixed width (log entry 18). -/
  | busRead (addr : Nat) (size : AccessSize)
  /-- A write at a platform address (42_host_access R178). -/
  | busWrite (addr : Nat) (size : AccessSize) (v : Word)
  /-- A host memory byte read (`LB`, 42_host_access R178). -/
  | memRead (a : Addr)
  /-- A host memory byte write that completes at once (`SB`, 42_host_access R178). -/
  | memWrite (a : Addr) (v : Byte)
  /-- A host memory byte write that is issued and not yet completed (20_memory R76, 93_implementation_defined U8). -/
  | memPost (a : Addr) (v : Byte)
  /-- The platform completes the oldest issued host write (93_implementation_defined U8). -/
  | drain
  /-- The host's fence: every issued host write completes (70_reset_and_hazards R223). -/
  | fence
  /-- `WAITDONE`: the host reads STATUS until BUSY = 0 (42_host_access R179). -/
  | waitDone
  /-- The host waits until `irq` = 1, with no transaction (95_test_vectors P5). -/
  | waitIrq
  /-- A turn of the engine: one step if an operation runs (00_scope R13). -/
  | engine
  /-- `rst` is asserted (70_reset_and_hazards R210). -/
  | rstAssert
  /-- `rst` is released (70_reset_and_hazards R210). -/
  | rstRelease
  deriving DecidableEq, Repr

/-- A byte of the running operation's footprint that another agent has written while BUSY = 1
(70_reset_and_hazards R217, 93_implementation_defined U1; log entry 6). -/
structure Race where
  /-- The byte's address. -/
  addr : Addr
  /-- The last value another agent wrote there. -/
  hostVal : Byte
  /-- The value the operation's engine wrote there, if it has. -/
  engineVal : Option Byte
  /-- Every value the byte has had since just before the first write of another agent: what a read may give. -/
  seen : List Byte
  deriving DecidableEq, Repr

/-- Memory contents: pairs of an address and a byte, in canonical form (`Memory.wf`). -/
abbrev Memory := List Host.Cell

/-- The machine. -/
structure State where
  /-- The open parameters; `platform.magic` is the register MAGIC (10_state R36; log entry 2). -/
  platform : Platform
  /-- The reset input, a level (70_reset_and_hazards R210). -/
  rst : Bool
  /-- STATUS.DONE (10_state R25). -/
  done : Bool
  /-- STATUS.CMD_IGNORED (10_state R26). -/
  cmdIgnored : Bool
  /-- RESULT.CODE (10_state R27). -/
  result : Result
  /-- CONFIG.TRUNC_MODE (10_state R28). -/
  truncMode : TruncMode
  /-- CONFIG.TEXT_MODE (10_state R28). -/
  textMode : TextMode
  /-- CONFIG.IRQ_EN (10_state R28). -/
  irqEn : Bool
  /-- WIDTH (10_state R29). -/
  width : Word
  /-- HEIGHT (10_state R30). -/
  height : Word
  /-- GRID_BASE (10_state R31). -/
  gridBase : Word
  /-- PAYLOAD_BASE (10_state R32). -/
  payloadBase : Word
  /-- PAYLOAD_LEN (10_state R33). -/
  payloadLen : Word
  /-- DECODED_LEN (10_state R34). -/
  decodedLen : BitVec 16
  /-- The engine phase (10_state R42); STATUS.BUSY is `phase ≠ idle`. -/
  phase : Phase
  /-- The latched pixel count, exact (10_state R43). -/
  sN : Nat
  /-- The latched GRID_BASE (10_state R43). -/
  sGB : Word
  /-- The latched PAYLOAD_BASE (10_state R43). -/
  sPB : Word
  /-- The latched PAYLOAD_LEN (10_state R43, EMBED only). -/
  sL : Word
  /-- The latched TRUNC_MODE (10_state R43, EXTRACT only). -/
  sTM : TruncMode
  /-- The latched TEXT_MODE (10_state R43, EXTRACT only). -/
  sXM : TextMode
  /-- The stream bit index, read as BITPOS (10_state R44, R35). -/
  k : Nat
  /-- EMBED's scan index (10_state R45). -/
  j : Nat
  /-- EMBED's current payload byte (10_state R46). -/
  cur : Byte
  /-- EXTRACT's header bits (10_state R47). -/
  hdr : BitVec 24
  /-- EXTRACT's length bits (10_state R47). -/
  lenacc : BitVec 16
  /-- EXTRACT's bits of the byte being assembled (10_state R47). -/
  acc : Byte
  /-- EXTRACT's decoded bytes (10_state R48). -/
  dec : List Byte
  /-- The shared memory (20_memory R60). -/
  mem : Memory
  /-- Host writes issued and not completed, oldest first (log entry 8). -/
  posted : List (Addr × Byte)
  /-- The running operation's races (log entry 6). -/
  races : List Race
  /-- Older memories a host read may still see (log entry 7). -/
  views : List Memory
  /-- What the last read transaction returned (log entry 12). -/
  lastRead : Option Word
  /-- What happens next (log entry 1). -/
  script : List Event
  /-- The counter the free value is applied to (log entry 9). -/
  choices : Nat
  deriving DecidableEq, Repr

/-- Why the machine stops with a fault: it never does, so there is no constructor. The block has no trap
(60_exceptions R185); the engine at an address that is not backed is stuck, and the machine goes on around it
(93_implementation_defined U4); nothing the host does stops the machine (70_reset_and_hazards R227; log entry 5). -/
inductive Fault
  deriving DecidableEq, Repr

/-- Why an instruction is refused. -/
inductive Refusal where
  /-- Raised only by an arm of `exec` that gives its instruction no meaning yet; no arm does. Safe. -/
  | notModelled (mnemonic : String)
  deriving DecidableEq, Repr

/-- The machine right after reset (10_state R50, 70_reset_and_hazards R210, R213): idle, every register 0, the engine
state 0, `rst` released, nothing listed in memory (log entry 3), and the model's own fields empty (log entry 1). -/
def State.reset : State :=
  { platform := Config.platform
    rst := false
    done := false
    cmdIgnored := false
    result := .ok
    truncMode := .error
    textMode := .utf8
    irqEn := false
    width := 0
    height := 0
    gridBase := 0
    payloadBase := 0
    payloadLen := 0
    decodedLen := 0
    phase := .idle
    sN := 0
    sGB := 0
    sPB := 0
    sL := 0
    sTM := .error
    sXM := .utf8
    k := 0
    j := 0
    cur := 0
    hdr := 0
    lenacc := 0
    acc := 0
    dec := []
    mem := []
    posted := []
    races := []
    views := []
    lastRead := none
    script := []
    choices := 0 }

end Sys2Proof.Machine
end

