-- ==== Sys2Proof/Machine/Operands.lean ====
section
/-! DEFINITION. Operands, addresses and bits: the latched operands (spec/10_state.md R43, spec/30_encoding.md R101), the
addresses the engine reaches (spec/20_memory.md R63, R64), the bits of the stream (spec/30_encoding.md R86 to R94), the
footprint (spec/70_reset_and_hazards.md R219), and the numbers of the fields of the registers. -/

namespace Sys2Proof.Machine

open Sys2Proof

/-! ## Fields of registers -/

/-- RESULT.CODE of a result (60_exceptions R186). -/
def Result.code : Result → BitVec 4
  | .ok => 0#4
  | .payloadTooLarge => 1#4
  | .nonAsciiPayload => 2#4
  | .insufficientCapacity => 3#4
  | .missingOrInvalidHeader => 4#4
  | .invalidPayloadEncoding => 5#4
  | .truncatedImage => 6#4

/-- CONFIG.TRUNC_MODE as a bit (10_state R28). -/
def TruncMode.bit : TruncMode → Bool
  | .error => false
  | .zeroFill => true

/-- The TRUNC_MODE a bit stands for (10_state R28). -/
def TruncMode.ofBit : Bool → TruncMode
  | false => .error
  | true => .zeroFill

/-- CONFIG.TEXT_MODE as a bit (10_state R28). -/
def TextMode.bit : TextMode → Bool
  | .utf8 => false
  | .ascii => true

/-- The TEXT_MODE a bit stands for (10_state R28). -/
def TextMode.ofBit : Bool → TextMode
  | false => .utf8
  | true => .ascii

/-! ## Bits -/

/-- `v[i] <- b`, every other bit unchanged (00_scope R10). -/
def setBit {w : Nat} (v : BitVec w) (i : Nat) (b : Bool) : BitVec w :=
  (v &&& ~~~(1#w <<< i)) ||| (if b then 1#w <<< i else 0#w)

/-- `NewRed(r, b) = (r & 0xFE) | b` (30_encoding R93). -/
def newRed (r : Byte) (b : Bool) : Byte :=
  (r &&& 0xFE#8) ||| (if b then 0x01#8 else 0x00#8)

/-- The stream bit a red byte carries, `r[0]` (30_encoding R94). -/
def redBit (r : Byte) : Bool := r.getLsbD 0

/-- `MAGIC_BYTE(m) = P_MAGIC[8m+7:8m]` (00_scope R8). -/
def magicByte (magic : BitVec 24) (m : Nat) : Byte := magic.extractLsb' (8 * m) 8

/-- `StreamBitE(k)` (30_encoding R92) for the length `len` and the payload bytes `pay`. -/
def streamBit (magic : BitVec 24) (len : BitVec 16) (pay : Nat → Byte) (k : Nat) : Bool :=
  if k < 24 then magic.getLsbD k
  else if k < 40 then len.getLsbD (k - 24)
  else (pay ((k - 40) / 8)).getLsbD ((k - 40) % 8)

/-- The stream length `T(L) = 40 + 8 * L` (30_encoding R87). -/
def streamLen (len : Nat) : Nat := Config.prefixBits + 8 * len

/-! ## Operands and addresses -/

/-- `N = WIDTH * HEIGHT`, the exact product (10_state R43, 40_embed R119). -/
def pixelCount (s : State) : Nat := s.width.toNat * s.height.toNat

/-- `RedAddr(p)` for the grid base `gb`: `(gb + 3 * p) mod 2^32` (20_memory R63). -/
def redAddrAt (gb : Addr) (p : Nat) : Addr :=
  gb + BitVec.ofNat 32 (Config.pixelStride * p)

/-- `PayAddr(j)` for the payload base `pb`: `(pb + j) mod 2^32` (20_memory R64). -/
def payAddrAt (pb : Addr) (j : Nat) : Addr := pb + BitVec.ofNat 32 j

/-- `RedAddr(p)` of the running operation: from the latch `sGB` (20_memory R63). -/
def redAddr (s : State) (p : Nat) : Addr := redAddrAt s.sGB p

/-- `PayAddr(j)` of the running operation: from the latch `sPB` (20_memory R64). -/
def payAddr (s : State) (j : Nat) : Addr := payAddrAt s.sPB j

/-- `BACKED(a)`: no hole of the platform holds the address (20_memory R73). -/
def backed (s : State) (a : Addr) : Bool :=
  s.platform.holes.all fun r => decide (a.toNat < r.base) || decide (r.base + r.size ≤ a.toNat)

/-! ## The register window -/

/-- A legal register access: 32 bits at a multiple of 4 (42_host_access R166). -/
def legalAccess (off : BitVec 6) (size : AccessSize) : Bool :=
  size == .word && off.toNat % 4 == 0

/-- The platform address of a window offset, the exact sum `REG_BASE + off` (42_host_access R178, 00_scope R11). -/
def busAddr (s : State) (off : BitVec 6) : Nat := s.platform.regBase + off.toNat

/-- The window offset a platform address selects: the window is the 64 bytes from `REG_BASE` on (10_state R21). An address
outside the window selects nothing: DESIGN CHOICE, log entry 15. -/
def regOffset (s : State) (addr : Nat) : Option (BitVec 6) :=
  if s.platform.regBase ≤ addr ∧ addr < s.platform.regBase + 64 then
    some (BitVec.ofNat 6 (addr - s.platform.regBase))
  else none

/-! ## The footprint of the running operation -/

/-- `a` is `RedAddr(p)` for some `p < n`. `n` never exceeds 524320, so a byte is the red byte of at most one such
pixel. -/
def isRedBelow (s : State) (n : Nat) (a : Addr) : Bool :=
  let d := (a - s.sGB).toNat
  d % Config.pixelStride == 0 && decide (d / Config.pixelStride < n)

/-- `a` is `PayAddr(j)` for some `j < n`. -/
def isPayBelow (s : State) (n : Nat) (a : Addr) : Bool :=
  decide ((a - s.sPB).toNat < n)

/-- The longest stream, `T(65535) = 524320` (30_encoding R87). -/
def maxStream : Nat := streamLen Config.maxLen

/-- `a` is in the running operation's footprint (70_reset_and_hazards R219). -/
def inFootprint (s : State) (a : Addr) : Bool :=
  match s.phase with
  | .idle => false
  | .eLen | .eScan | .eCap | .eWrite =>
    decide (s.sL.toNat ≤ Config.maxLen) && (isPayBelow s s.sL.toNat a || isRedBelow s (streamLen s.sL.toNat) a)
  | .xBits => isRedBelow s (min s.sN maxStream) a || isPayBelow s Config.maxLen a

/-- The running operation's engine has written the byte at `a`: EMBED has written the red bytes below `k` (40_embed
R115), EXTRACT the payload bytes it has decoded (41_extract R144). -/
def engineWrote (s : State) (a : Addr) : Bool :=
  match s.phase with
  | .idle | .eLen | .eScan | .eCap => false
  | .eWrite => isRedBelow s s.k a
  | .xBits => isPayBelow s s.dec.length a

end Sys2Proof.Machine
end

