-- ==== Sys2Proof/Machine/Flags.lean ====
section
/-! DEFINITION. The status flags (spec/10_state.md R24 to R26, R40), what sets and clears them, and the interrupt level
(spec/60_exceptions.md R196). The block has no condition codes (10_state R40). -/

namespace Sys2Proof.Machine

open Sys2Proof

/-- STATUS.BUSY: 1 exactly when the phase is not IDLE (10_state R24, R42). -/
def State.busy (s : State) : Bool := s.phase != .idle

/-- `irq = STATUS.DONE & CONFIG.IRQ_EN` (60_exceptions R196). -/
def State.irq (s : State) : Bool := s.done && s.irqEn

/-- The register STATUS: bits 2, 1, 0 are CMD_IGNORED, DONE, BUSY (42_host_access R167). -/
def statusWord (s : State) : Word :=
  (0#29 ++ BitVec.ofBool s.cmdIgnored ++ BitVec.ofBool s.done ++ BitVec.ofBool s.busy : BitVec 32)

/-- The register RESULT: CODE in bits 3 to 0, and 0 while BUSY = 1 (42_host_access R167, 10_state R27). -/
def resultWord (s : State) : Word :=
  if s.busy then 0#32 else (0#28 ++ s.result.code : BitVec 32)

/-- The register CONFIG: bits 2, 1, 0 are IRQ_EN, TEXT_MODE, TRUNC_MODE (42_host_access R167). -/
def configWord (s : State) : Word :=
  (0#29 ++ BitVec.ofBool s.irqEn ++ BitVec.ofBool s.textMode.bit ++ BitVec.ofBool s.truncMode.bit : BitVec 32)

/-- STATUS.CMD_IGNORED <- 1, and nothing else (42_host_access R172, R173). -/
def setCmdIgnored (s : State) : State := { s with cmdIgnored := true }

/-- A register write of `v` to STATUS: the two write-1-to-clear bits (42_host_access R174, 10_state R22). -/
def clearStatus (v : Word) (s : State) : State :=
  { s with
    done := s.done && !v.getLsbD 1
    cmdIgnored := s.cmdIgnored && !v.getLsbD 2 }

end Sys2Proof.Machine
end

