-- ==== Sys2Proof/Machine/Memory.lean ====
section
/-! DEFINITION. The shared memory (spec/20_memory.md R60): one byte at each of 2^32 addresses, held in one canonical
form. Only byte accesses exist (R66), so no wider access is built. -/

namespace Sys2Proof.Machine

open Sys2Proof

/-- What a byte that nothing has written reads as. The spec leaves the contents at power-up to the platform
(10_state R51); DESIGN CHOICE 0x00, unsafe, log entry 3. -/
def unlistedByte : Byte := 0x00#8

/-- The byte at address `a` (`MemRead`, 00_scope R12). -/
def Memory.read : Memory → Nat → Byte
  | [], _ => unlistedByte
  | (b, v) :: m, a => if b = a then v else Memory.read m a

/-- The memory after the byte `v` is written at address `a` (`MemWrite`, 00_scope R12). The list stays in canonical
form: rising addresses, no entry equal to `unlistedByte`. -/
def Memory.write : Memory → Nat → Byte → Memory
  | [], a, v => if v = unlistedByte then [] else [(a, v)]
  | (b, w) :: m, a, v =>
    if a < b then
      if v = unlistedByte then (b, w) :: m else (a, v) :: (b, w) :: m
    else if a = b then
      if v = unlistedByte then m else (a, v) :: m
    else (b, w) :: Memory.write m a v

/-- Canonical form from address `lo` on: strictly rising addresses below 2^32 (20_memory R60), each at least `lo`, and
no entry equal to what an unlisted address reads as. -/
def Memory.wfFrom : Nat → Memory → Bool
  | _, [] => true
  | lo, (a, v) :: m => decide (lo ≤ a) && decide (a < 2 ^ 32) && decide (v ≠ unlistedByte) && Memory.wfFrom (a + 1) m

/-- The memory is in canonical form. -/
def Memory.wf (m : Memory) : Bool := Memory.wfFrom 0 m

end Sys2Proof.Machine
end

