-- ==== Sys2Proof/Machine/Ops.lean ====
section
/-! DEFINITION. The operations the instructions and the host share: memory accesses of the engine and of the host with
the bytes the spec leaves open (spec/20_memory.md R75 to R77, spec/70_reset_and_hazards.md R217, R218, R223), the end of
an operation (`Finish`, spec/60_exceptions.md R193), which is all this block has of taking an exception, and reset
(spec/70_reset_and_hazards.md R210 to R212). The acknowledge, its "return", is `clearStatus` in Flags. -/

namespace Sys2Proof.Machine

open Sys2Proof

/-! ## Bytes the spec leaves open -/

/-- One of `v` and `others`: where they are all equal there is nothing to choose; else the free value chooses
(93_implementation_defined U1, "any value"; log entry 9). -/
def chosen (s : State) (v : Byte) (others : List Byte) : Byte :=
  if others.all (· == v) then v else (v :: others).getD (Config.pick s.choices % (others.length + 1)) v

/-- The choice of `chosen`, and the state with the free value's counter advanced if it was used. -/
def choose (s : State) (v : Byte) (others : List Byte) : Byte × State :=
  (chosen s v others, { s with choices := if others.all (· == v) then s.choices else s.choices + 1 })

/-- A byte the spec says nothing of: the free value alone, and the state with its counter advanced (log entry 9). -/
def freeByte (s : State) : Byte × State :=
  (BitVec.ofNat 8 (Config.pick s.choices), { s with choices := s.choices + 1 })

/-- The values a read of a raced byte may give: those it has had since just before the first foreign write
(70_reset_and_hazards R217: "the old or the new value"). -/
def racedVals (s : State) (a : Addr) : List Byte :=
  (s.races.filter (·.addr == a)).flatMap (·.seen)

/-- The values of host writes to `a` that are issued and not completed (70_reset_and_hazards R223, U8). -/
def postedVals (s : State) (a : Addr) : List Byte :=
  (s.posted.filter (·.1 == a)).map (·.2)

/-! ## Accesses of the engine -/

/-- `MemRead(a, 1)` by the engine (00_scope R12, 20_memory R75). Where no other agent has written the byte during the
operation and no host write to it is outstanding, it is the byte of memory; else the old or the new value
(70_reset_and_hazards R217, R223). -/
def engineRead (s : State) (a : Addr) : Byte × State :=
  choose s (s.mem.read a.toNat) (racedVals s a ++ postedVals s a)

/-- A race remembers the engine's write (log entry 6). -/
def noteEngineWrite (a : Addr) (v : Byte) (r : Race) : Race :=
  if r.addr = a then { r with engineVal := some v, seen := r.seen ++ [v] } else r

/-- `MemWrite(a, 1, v)` by the engine (00_scope R12). -/
def engineWrite (s : State) (a : Addr) (v : Byte) : State :=
  { s with mem := s.mem.write a.toNat v, races := s.races.map (noteEngineWrite a v) }

/-! ## Accesses of the host -/

/-- A race remembers another host write (log entry 6). -/
def noteHostWrite (a : Addr) (v : Byte) (r : Race) : Race :=
  if r.addr = a then { r with hostVal := v, seen := r.seen ++ [v] } else r

/-- The races after the host writes `v` at `a`, a byte of the running operation's footprint. -/
def racesAfterHostWrite (s : State) (a : Addr) (v : Byte) : List Race :=
  if s.races.any (·.addr == a) then s.races.map (noteHostWrite a v)
  else
    s.races ++
      [{ addr := a
         hostVal := v
         engineVal := if engineWrote s a then some (s.mem.read a.toNat) else none
         seen := [s.mem.read a.toNat, v] }]

/-- A host write that reaches memory (42_host_access R176). The block neither sees nor checks it; while BUSY = 1, at a
byte of the footprint, it makes a race (70_reset_and_hazards R217). The host reads its own value back from the older
memories it may still see (log entry 7). -/
def hostStore (s : State) (a : Addr) (v : Byte) : State :=
  { s with
    mem := s.mem.write a.toNat v
    views := s.views.map (fun m => m.write a.toNat v)
    races := if inFootprint s a then racesAfterHostWrite s a v else s.races }

/-- The platform completes the oldest issued host write (20_memory R76; log entry 8). -/
def drainOne (s : State) : State :=
  match s.posted with
  | [] => s
  | (a, v) :: rest => hostStore { s with posted := rest } a v

/-- Every issued host write completes, oldest first: the host's fence (70_reset_and_hazards R223). -/
def drainAll (s : State) : State :=
  let t := s.posted.foldl (fun t c => hostStore t c.1 c.2) s
  { s with posted := [], mem := t.mem, views := t.views, races := t.races }

/-- What a host read of the byte at `a` gives (20_memory R77, 70_reset_and_hazards R218): the host's own write if one is
outstanding; else the byte of memory, or, for a byte an operation not yet seen complete has written, an older value. -/
def hostLoad (s : State) (a : Addr) : Byte × State :=
  match (postedVals s a).getLast? with
  | some v => (v, s)
  | none =>
    choose s (s.mem.read a.toNat)
      ((if engineWrote s a then racedVals s a else []) ++ s.views.map (fun m => m.read a.toNat))

/-- The host has seen that every operation is complete, so every engine write is visible to it (20_memory R77). -/
def hostSees (s : State) : State := { s with views := [] }

/-- Where `irq` is high the host has seen the completion (20_memory R77: "or the block raises `irq` for it"). -/
def hostSeesIrq (s : State) : State := { s with views := if s.irq then [] else s.views }

/-! ## The start and the end of an operation -/

/-- A raced byte that both agents wrote ends with either agent's value (70_reset_and_hazards R217). -/
def settleRace (s : State) (r : Race) : State :=
  match r.engineVal with
  | none => s
  | some w =>
    let (v, s1) := choose s r.hostVal [w]
    { s1 with mem := s.mem.write r.addr.toNat v }

/-- The operation's races end: each raced byte gets its final value (70_reset_and_hazards R217). -/
def settle (s : State) : State :=
  let t := s.races.foldl settleRace s
  { s with mem := t.mem, choices := t.choices, races := [] }

/-- `Finish(code)` (60_exceptions R193): the end of an operation, with its result. Nothing but RESULT.CODE,
STATUS.BUSY, STATUS.DONE and the phase changes; the model settles the races and, if `irq` rises, the host sees the
completion. -/
def finish (r : Result) (s : State) : State :=
  hostSeesIrq { settle s with result := r, done := true, phase := .idle }

/-- What `Start(op)` does for both operations (42_host_access R170): the operands both use are latched, `k <- 0`,
`j <- 0` (10_state R49: "every start sets `k`, `j`"; log entry 19), STATUS.DONE <- 0, RESULT.CODE <- 0, and the first phase
(so STATUS.BUSY = 1). No memory access. The model keeps the
memory of this moment as one the host may still see (log entry 7). -/
def startCommon (first : Phase) (s : State) : State :=
  { s with
    sN := pixelCount s
    sGB := s.gridBase
    sPB := s.payloadBase
    k := 0
    j := 0
    done := false
    result := .ok
    phase := first
    views := s.views ++ [s.mem] }

/-! ## Reset -/

/-- The block's registers and engine state at the values of 10_state R50, everything outside the block unchanged
(10_state R51, 70_reset_and_hazards R210 to R212). A running operation is abandoned at this step boundary without
`Finish`; its races settle. -/
def resetBlock (s : State) : State :=
  { settle s with
    done := false
    cmdIgnored := false
    result := .ok
    truncMode := .error
    textMode := .utf8
    irqEn := false
    width := 0
    height := 0
    gridBase := 0
    payloadBase := 0
    payloadLen := 0
    decodedLen := 0
    phase := .idle
    sN := 0
    sGB := 0
    sPB := 0
    sL := 0
    sTM := .error
    sXM := .utf8
    k := 0
    j := 0
    cur := 0
    hdr := 0
    lenacc := 0
    acc := 0
    dec := [] }

end Sys2Proof.Machine
end

