-- ==== Sys2Proof/Machine/Embed.lean ====
section
/-! DEFINITION. EMBED (spec/40_embed.md): the meaning of the command word, which starts the operation, and the engine
steps of its four phases. -/

namespace Sys2Proof.Machine

open Sys2Proof

/-- EMBED start (40_embed R111), done wholly within the register write of CMD (42_host_access R170). -/
def startEmbed (s : State) : State :=
  { startCommon .eLen s with sL := s.payloadLen }

/-- EMBED written to CMD (42_host_access R169): a start, or, while BUSY = 1, only STATUS.CMD_IGNORED <- 1 (R172). The
operation's further steps are the engine's. -/
def execEmbed (s : State) : Host.Outcome State Fault Refusal :=
  .next (if s.busy then setCmdIgnored s else startEmbed s)

/-- Phase E_LEN (40_embed R112). -/
def embedLen (s : State) : State :=
  if s.sL.toNat > Config.maxLen then finish .payloadTooLarge s else { s with phase := .eScan }

/-- Phase E_SCAN (40_embed R113). -/
def embedScan (s : State) : State :=
  if s.j = s.sL.toNat then { s with phase := .eCap }
  else
    let (b, s1) := engineRead s (payAddr s s.j)
    if b.toNat ≥ Config.asciiLimit then finish .nonAsciiPayload s1 else { s1 with j := s1.j + 1 }

/-- Phase E_CAP (40_embed R114). -/
def embedCap (s : State) : State :=
  if s.sN < streamLen s.sL.toNat then finish .insufficientCapacity s
  else { s with k := 0, phase := .eWrite }

/-- The payload byte a write step reads: at the first bit of each payload byte (40_embed R115). -/
def embedPayloadRead (s : State) : Option Nat :=
  if 40 ≤ s.k ∧ (s.k - 40) % 8 = 0 then some ((s.k - 40) / 8) else none

/-- The first access of a write step: `cur <- MemRead(PayAddr((k - 40) div 8), 1)`, in the steps that have it
(40_embed R115). -/
def embedFetch (s : State) : State :=
  match embedPayloadRead s with
  | some p =>
    let (b, s1) := engineRead s (payAddr s p)
    { s1 with cur := b }
  | none => s

/-- The stream bit of a write step, from the byte just fetched (40_embed R115). -/
def embedBit (s : State) : Bool :=
  streamBit s.platform.magic (s.sL.setWidth 16) (fun _ => s.cur) s.k

/-- The other accesses of a write step: the red byte is read and written back with the stream bit, and `k` advances
(40_embed R115). -/
def embedPut (s : State) : State :=
  let (r, s1) := engineRead s (redAddr s s.k)
  let s2 := engineWrite s1 (redAddr s s.k) (newRed r (embedBit s))
  { s2 with k := s.k + 1 }

/-- Phase E_WRITE (40_embed R115). -/
def embedWrite (s : State) : State :=
  let s1 := embedPut (embedFetch s)
  if s1.k = streamLen s1.sL.toNat then finish .ok s1 else s1

end Sys2Proof.Machine
end

