-- ==== Sys2Proof/Machine/Text.lean ====
section
/-! DEFINITION. EXTRACT's text check (spec/41_extract.md R145 to R147): ASCII, or well-formed UTF-8 by the spec's table of
byte sequences. -/

namespace Sys2Proof.Machine

open Sys2Proof

/-- A range of byte values, ends included. -/
structure ByteRange where
  lo : Byte
  hi : Byte
  deriving DecidableEq, Repr

/-- A row of the table of 41_extract R147: the range of byte 1 and the ranges of the bytes after it. -/
structure Utf8Row where
  lead : ByteRange
  rest : List ByteRange
  deriving DecidableEq, Repr

/-- The byte is in the range. -/
def inRange (r : ByteRange) (b : Byte) : Bool :=
  decide (r.lo.toNat ≤ b.toNat) && decide (b.toNat ≤ r.hi.toNat)

/-- `80 .. BF`, the range of most bytes after the first (41_extract R147). -/
def contRange : ByteRange := { lo := 0x80#8, hi := 0xBF#8 }

/-- The table of well-formed UTF-8 byte sequences (41_extract R147), row by row. -/
def utf8Table : List Utf8Row :=
  [ -- U+0000 .. U+007F
    { lead := { lo := 0x00#8, hi := 0x7F#8 }, rest := [] },
    -- U+0080 .. U+07FF
    { lead := { lo := 0xC2#8, hi := 0xDF#8 }, rest := [contRange] },
    -- U+0800 .. U+0FFF
    { lead := { lo := 0xE0#8, hi := 0xE0#8 }, rest := [{ lo := 0xA0#8, hi := 0xBF#8 }, contRange] },
    -- U+1000 .. U+CFFF
    { lead := { lo := 0xE1#8, hi := 0xEC#8 }, rest := [contRange, contRange] },
    -- U+D000 .. U+D7FF
    { lead := { lo := 0xED#8, hi := 0xED#8 }, rest := [{ lo := 0x80#8, hi := 0x9F#8 }, contRange] },
    -- U+E000 .. U+FFFF
    { lead := { lo := 0xEE#8, hi := 0xEF#8 }, rest := [contRange, contRange] },
    -- U+10000 .. U+3FFFF
    { lead := { lo := 0xF0#8, hi := 0xF0#8 }, rest := [{ lo := 0x90#8, hi := 0xBF#8 }, contRange, contRange] },
    -- U+40000 .. U+FFFFF
    { lead := { lo := 0xF1#8, hi := 0xF3#8 }, rest := [contRange, contRange, contRange] },
    -- U+100000 .. U+10FFFF
    { lead := { lo := 0xF4#8, hi := 0xF4#8 }, rest := [{ lo := 0x80#8, hi := 0x8F#8 }, contRange, contRange] } ]

/-- The row whose byte 1 the byte can be; the ranges of byte 1 do not overlap, so there is at most one. -/
def utf8RowOf (b : Byte) : Option Utf8Row := utf8Table.find? fun r => inRange r.lead b

/-- The bytes complete the ranges still expected, and then go on as whole sequences of the table. A sequence cut off
at the end is invalid (41_extract R147). -/
def utf8From : List ByteRange → List Byte → Bool
  | [], [] => true
  | _ :: _, [] => false
  | [], b :: bs =>
    match utf8RowOf b with
    | some r => utf8From r.rest bs
    | none => false
  | r :: rs, b :: bs => inRange r b && utf8From rs bs

/-- `TextValid(0, d)`: the bytes are well-formed UTF-8 (41_extract R147). -/
def utf8Valid (d : List Byte) : Bool := utf8From [] d

/-- `TextValid(1, d)`: every byte is below 0x80 (41_extract R146). -/
def asciiValid (d : List Byte) : Bool := d.all fun b => decide (b.toNat < Config.asciiLimit)

/-- `TextValid(xm, d)` (41_extract R145). -/
def textValid : TextMode → List Byte → Bool
  | .utf8, d => utf8Valid d
  | .ascii, d => asciiValid d

end Sys2Proof.Machine
end

