-- ==== Sys2Proof/Machine/Extract.lean ====
section
/-! DEFINITION. EXTRACT (spec/41_extract.md): the meaning of the command word, which starts the operation, and the engine
step of its one phase. -/

namespace Sys2Proof.Machine

open Sys2Proof

/-- EXTRACT start (41_extract R136), done wholly within the register write of CMD (42_host_access R170). It sets
the hidden `j` to 0 too, as 10_state R49 says of every start (DEDUCED, log entry 19: R136 does not list it). -/
def startExtract (s : State) : State :=
  { startCommon .xBits s with sTM := s.truncMode, sXM := s.textMode, dec := [], decodedLen := 0 }

/-- EXTRACT written to CMD (42_host_access R169): a start, or, while BUSY = 1, only STATUS.CMD_IGNORED <- 1 (R172). The
operation's further steps are the engine's. -/
def execExtract (s : State) : Host.Outcome State Fault Refusal :=
  .next (if s.busy then setCmdIgnored s else startExtract s)

/-- "place it" and `k <- k + 1` (41_extract R137, R140). -/
def placeBit (b : Bool) (s : State) : State :=
  if s.k < 24 then { s with hdr := setBit s.hdr s.k b, k := s.k + 1 }
  else if s.k < 40 then { s with lenacc := setBit s.lenacc (s.k - 24) b, k := s.k + 1 }
  else { s with acc := setBit s.acc ((s.k - 40) % 8) b, k := s.k + 1 }

/-- The payload byte that is complete when the stream index has become `k` (41_extract R137, R144). -/
def completeByte (k : Nat) : Option Nat :=
  if 40 < k ∧ (k - 40) % 8 = 0 then some ((k - 40) / 8 - 1) else none

/-- The text check and the end, after the last payload byte (41_extract R145). -/
def extractEnd (s : State) : State :=
  finish (if textValid s.sXM s.dec then .ok else .invalidPayloadEncoding) s

/-- "act at field boundaries" (41_extract R137): the header check (R141), the length (R142, R143), a payload byte (R144)
and after the last one the text check (R145). -/
def extractAct (s : State) : State :=
  if s.k = 24 then
    if s.hdr ≠ s.platform.magic then finish .missingOrInvalidHeader s else s
  else if s.k = 40 then
    let s1 := { s with decodedLen := s.lenacc }
    if s.lenacc = 0 then finish .ok s1 else s1
  else
    match completeByte s.k with
    | some p =>
      let s1 := { engineWrite s (payAddr s p) s.acc with dec := s.dec ++ [s.acc] }
      if s1.k = streamLen s1.decodedLen.toNat then extractEnd s1 else s1
    | none => s

/-- Phase X_BITS (41_extract R137): take stream bit `k` (from the red byte of pixel `k`; or, where the grid has no such
pixel, the end with TruncatedImage of R138 or the zero of R139), place it, and act. -/
def extractBits (s : State) : State :=
  if s.k < s.sN then
    let (r, s1) := engineRead s (redAddr s s.k)
    extractAct (placeBit (redBit r) s1)
  else
    match s.sTM with
    | .error => finish .truncatedImage s
    | .zeroFill => extractAct (placeBit false s)

end Sys2Proof.Machine
end

