-- ==== Sys2Proof/Machine/Nop.lean ====
section
/-! DEFINITION. The meaning of NOP (spec/42_host_access.md R171). -/

namespace Sys2Proof.Machine

open Sys2Proof

/-- NOP: "no state changes, whatever STATUS.BUSY is; CMD_IGNORED is not set" (42_host_access R171). -/
def execNop (s : State) : Host.Outcome State Fault Refusal := .next s

end Sys2Proof.Machine
end

