-- ==== Sys2Proof/Machine/Dispatch.lean ====
section
/-! DEFINITION. The meaning of each command (spec/30_encoding.md R97), one arm per row of spec/opcode_table.json. -/

namespace Sys2Proof.Machine

open Sys2Proof

def exec (i : Instr) (s : State) : Host.Outcome State Fault Refusal :=
  match i with
  | .nop => Sys2Proof.Machine.execNop s
  | .embed => Sys2Proof.Machine.execEmbed s
  | .extract => Sys2Proof.Machine.execExtract s

end Sys2Proof.Machine
end

