-- ==== Sys2Proof/Machine/Engine.lean ====
section
/-! DEFINITION. The engine (spec/10_state.md R42): its next step, the bytes that step accesses, and a turn of it, which
takes no step while the block is idle (spec/70_reset_and_hazards.md R228), in reset (R210) or stuck
(spec/20_memory.md R73, spec/93_implementation_defined.md U4). -/

namespace Sys2Proof.Machine

open Sys2Proof

/-- The addresses the engine's next step reads or writes, in order: none in E_LEN and E_CAP (40_embed R112, R114), the
payload byte of a scan step (R113), the payload byte and the red byte of a write step (R115), the red byte and the
payload byte of an EXTRACT step (41_extract R137; none in a step that finds no pixel, R138, R139, but for the payload
byte it completes). -/
def engineAccesses (s : State) : List Addr :=
  match s.phase with
  | .idle | .eLen | .eCap => []
  | .eScan => if s.j = s.sL.toNat then [] else [payAddr s s.j]
  | .eWrite => (embedPayloadRead s).toList.map (payAddr s) ++ [redAddr s s.k]
  | .xBits =>
    if s.k < s.sN then redAddr s s.k :: (completeByte (s.k + 1)).toList.map (payAddr s)
    else
      match s.sTM with
      | .error => []
      | .zeroFill => (completeByte (s.k + 1)).toList.map (payAddr s)

/-- The engine is stuck: an operation runs and its next step would access an address that is not backed (20_memory R73,
93_implementation_defined U4: "the engine takes no further step and the operation never finishes"; log entry 4). -/
def engineStuck (s : State) : Bool := (engineAccesses s).any fun a => !backed s a

/-- The step of the phase (40_embed R112 to R115, 41_extract R137). -/
def engineStep (s : State) : State :=
  match s.phase with
  | .idle => s
  | .eLen => embedLen s
  | .eScan => embedScan s
  | .eCap => embedCap s
  | .eWrite => embedWrite s
  | .xBits => extractBits s

/-- A turn of the engine: one atomic step (00_scope R13), or nothing while idle (70_reset_and_hazards R228), while `rst`
is asserted (R210), or when stuck. -/
def engineTurn (s : State) : State :=
  if s.rst || engineStuck s then s else engineStep s

/-- `n` turns of the engine with nothing of the host between them. -/
def runEngine : Nat → State → State
  | 0, s => s
  | n + 1, s => runEngine n (engineTurn s)

end Sys2Proof.Machine
end

