-- ==== Sys2Proof/Machine/Host.lean ====
section
/-! DEFINITION. What the host, the platform and `rst` do (spec/42_host_access.md, spec/70_reset_and_hazards.md R210): the
register window, the command decoder, host memory transactions, and one event of the script. -/

namespace Sys2Proof.Machine

open Sys2Proof

/-- `RegRead(off)` (42_host_access R167). -/
def regRead (s : State) (off : BitVec 6) : Word :=
  match off.toNat with
  | 0x04 => statusWord s
  | 0x08 => resultWord s
  | 0x0C => configWord s
  | 0x10 => s.width
  | 0x14 => s.height
  | 0x18 => s.gridBase
  | 0x1C => s.payloadBase
  | 0x20 => s.payloadLen
  | 0x24 => s.decodedLen.setWidth 32
  | 0x28 => BitVec.ofNat 32 s.k
  | 0x2C => s.platform.magic.setWidth 32
  | _ => 0#32

/-- A word written to CMD (42_host_access R169): a command has its meaning; a reserved word starts nothing and sets
STATUS.CMD_IGNORED (R173, and R172 while BUSY = 1). -/
def command (w : Word) (s : State) : Host.Outcome State Fault Refusal :=
  match decode w with
  | .ok i => exec i s
  | .error (.reserved _) => .next (setCmdIgnored s)

/-- A register write of `v` to CONFIG (42_host_access R168). Setting IRQ_EN while DONE = 1 raises `irq`
(60_exceptions R196), and the host then sees the completion (20_memory R77). -/
def writeConfig (v : Word) (s : State) : State :=
  hostSeesIrq
    { s with
      truncMode := TruncMode.ofBit (v.getLsbD 0)
      textMode := TextMode.ofBit (v.getLsbD 1)
      irqEn := v.getLsbD 2 }

/-- `RegWrite(off, v)` (42_host_access R168). -/
def regWrite (off : BitVec 6) (v : Word) (s : State) : Host.Outcome State Fault Refusal :=
  match off.toNat with
  | 0x00 => command v s
  | 0x04 => .next (clearStatus v s)
  | 0x0C => .next (writeConfig v s)
  | 0x10 => .next { s with width := v }
  | 0x14 => .next { s with height := v }
  | 0x18 => .next { s with gridBase := v }
  | 0x1C => .next { s with payloadBase := v }
  | 0x20 => .next { s with payloadLen := v }
  | _ => .next s

/-- A register read transaction: an access that is not legal reads 0 (42_host_access R166). It changes no state of the
block (R165); a read of STATUS that gives BUSY = 0 or DONE = 1 shows the host the completion (20_memory R77). -/
def hostRegRead (off : BitVec 6) (size : AccessSize) (s : State) : State :=
  if legalAccess off size then
    let t := { s with lastRead := some (regRead s off) }
    if off.toNat = 0x04 ∧ (!s.busy || s.done) = true then hostSees t else t
  else { s with lastRead := some 0#32 }

/-- A register write transaction: an access that is not legal changes no state (42_host_access R166), nor does any while
`rst` is asserted, when every register holds its reset value (70_reset_and_hazards R210; log entry 10). -/
def hostRegWrite (off : BitVec 6) (size : AccessSize) (v : Word) (s : State) : Host.Outcome State Fault Refusal :=
  if s.rst then .next s
  else if legalAccess off size then regWrite off v s
  else .next s

/-- `LB a` (42_host_access R178). At an address that is not backed the data is the platform's: a free value (20_memory R73;
log entry 5). -/
def hostMemRead (a : Addr) (s : State) : State :=
  let (v, s1) := if backed s a then hostLoad s a else freeByte s
  { s1 with lastRead := some (v.setWidth 32) }

/-- A host write to an address that is not backed reaches nothing the model holds (20_memory R73; log entry 5). -/
def ifBacked (a : Addr) (write : State → State) (s : State) : State := if backed s a then write s else s

/-- A host write that is issued and completes later (20_memory R76; log entry 8). -/
def hostMemPost (a : Addr) (v : Byte) (s : State) : State := { s with posted := s.posted ++ [(a, v)] }

/-- `SB a, v` (42_host_access R178), completed at once: after the writes the host issued before it (log entry 8). -/
def hostMemWrite (a : Addr) (v : Byte) (s : State) : State := hostStore (drainAll s) a v

/-- One event of the script, at a state whose script is the rest (20_memory R82). -/
def runEvent (e : Event) (s : State) : Host.Outcome State Fault Refusal :=
  match e with
  | .regRead off size => .next (hostRegRead off size s)
  | .regWrite off size v => hostRegWrite off size v s
  | .busRead addr size =>
    match regOffset s addr with
    | some off => .next (hostRegRead off size s)
    | none => .next { s with lastRead := none }
  | .busWrite addr size v =>
    match regOffset s addr with
    | some off => hostRegWrite off size v s
    | none => .next s
  | .memRead a => .next (hostMemRead a s)
  | .memWrite a v => .next (ifBacked a (hostMemWrite a v) s)
  | .memPost a v => .next (ifBacked a (hostMemPost a v) s)
  | .drain => .next (drainOne s)
  | .fence => .next (drainAll s)
  | .waitDone =>
    if s.busy then .next (engineTurn { hostRegRead 0x04#6 .word s with script := .waitDone :: s.script })
    else .next (hostRegRead 0x04#6 .word s)
  | .waitIrq => if s.irq then .next s else .next (engineTurn { s with script := .waitIrq :: s.script })
  | .engine => .next (engineTurn s)
  | .rstAssert => .next { resetBlock s with rst := true }
  | .rstRelease => .next { s with rst := false }

end Sys2Proof.Machine
end

