-- ==== Sys2Proof/Machine/Step.lean ====
section
/-! DEFINITION. One step of the machine: the next event of the script, or, when the script is at its end, a turn of the
engine (spec/20_memory.md R82, spec/70_reset_and_hazards.md R227, R228; log entry 1). -/

namespace Sys2Proof.Machine

open Sys2Proof

/-- One step. -/
def step (s : State) : Host.Outcome State Fault Refusal :=
  match s.script with
  | [] => .next (engineTurn s)
  | e :: rest => runEvent e { s with script := rest }

/-- The state in which the next event is the register write of the command word `w` to CMD, which is how an instruction
reaches this block (30_encoding R96, 42_host_access R165; log entry 11). A command takes effect only while `rst` is
released, so it is. -/
def State.withFetchWord (s : State) (nbits w : Nat) : State :=
  { s with
    rst := false
    script := .regWrite 0x00#6 .word (BitVec.ofNat 32 (w % 2 ^ nbits)) :: s.script }

end Sys2Proof.Machine
end

