-- ==== Sys2Proof/Machine/Whole.lean ====
section
/-! DEFINITION. The two operations as functions on memory, as the spec writes them beside its step rules
(spec/40_embed.md R121, spec/41_extract.md R151). The machine does not use them: they are what statements compare a whole
operation with. -/

namespace Sys2Proof.Machine

open Sys2Proof

/-- Payload byte `i` of a payload buffer at `pb` in the memory `m` (20_memory R64). -/
def payloadByte (m : Memory) (pb : Addr) (i : Nat) : Byte := m.read (payAddrAt pb i).toNat

/-- The red byte of pixel `p` of a grid at `gb` in the memory `m` (20_memory R63). -/
def redByte (m : Memory) (gb : Addr) (p : Nat) : Byte := m.read (redAddrAt gb p).toNat

/-- "for j in 0 .. L-1: if M[(PB + j) mod 2^32] >= 0x80" (40_embed R121). -/
def hasNonAscii (m : Memory) (pb : Addr) (len : Nat) : Bool :=
  (List.range len).any fun i => decide (Config.asciiLimit ≤ (payloadByte m pb i).toNat)

/-- The memory after the first `n` turns of the loop of `EmbedFn` (40_embed R121). -/
def embedWritten (magic : BitVec 24) (m : Memory) (gb pb : Addr) (len : Nat) : Nat → Memory
  | 0 => m
  | n + 1 =>
    let m1 := embedWritten magic m gb pb len n
    m1.write (redAddrAt gb n).toNat
      (newRed (redByte m1 gb n) (streamBit magic (BitVec.ofNat 16 len) (payloadByte m pb) n))

/-- `EmbedFn(M, N, GB, PB, L) -> (code, M', bitpos)` (40_embed R121). -/
def embedFn (magic : BitVec 24) (m : Memory) (n : Nat) (gb pb : Addr) (len : Nat) : Result × Memory × Nat :=
  if len > Config.maxLen then (.payloadTooLarge, m, 0)
  else if hasNonAscii m pb len then (.nonAsciiPayload, m, 0)
  else if n < streamLen len then (.insufficientCapacity, m, 0)
  else (.ok, embedWritten magic m gb pb len (streamLen len), streamLen len)

/-- `take(k)` (41_extract R151): the bit of pixel `k`, a missing bit as 0 in ZERO_FILL mode, none in ERROR mode. -/
def takeBit (m : Memory) (n : Nat) (gb : Addr) (tm : TruncMode) (k : Nat) : Option Bool :=
  if k < n then some (redBit (redByte m gb k))
  else
    match tm with
    | .zeroFill => some false
    | .error => none

/-- `sum over i < n of f(i) * 2^i` (30_encoding R95). -/
def bitSum (f : Nat → Bool) : Nat → Nat
  | 0 => 0
  | n + 1 => bitSum f n + if f n then 2 ^ n else 0

/-- Payload byte `i` as decoded from the stream bits `bits` (30_encoding R95). -/
def decodedByte (bits : Nat → Bool) (i : Nat) : Byte := BitVec.ofNat 8 (bitSum (fun b => bits (40 + 8 * i + b)) 8)

/-- The memory after the first `n` decoded bytes are written to the output buffer (41_extract R151). -/
def extractWritten (m : Memory) (pb : Addr) (bits : Nat → Bool) : Nat → Memory
  | 0 => m
  | n + 1 => (extractWritten m pb bits n).write (payAddrAt pb n).toNat (decodedByte bits n)

/-- `ExtractFn(M, N, GB, PB, tm, xm) -> (code, M', declen, bitpos)` (41_extract R151). -/
def extractFn (magic : BitVec 24) (m : Memory) (n : Nat) (gb pb : Addr) (tm : TruncMode) (xm : TextMode) :
    Result × Memory × Nat × Nat :=
  let missing := fun lim => (List.range lim).any fun k => (takeBit m n gb tm k).isNone
  let bits := fun k => (takeBit m n gb tm k).getD false
  if missing 24 then (.truncatedImage, m, 0, n)
  else if bitSum bits 24 ≠ magic.toNat then (.missingOrInvalidHeader, m, 0, 24)
  else if missing 40 then (.truncatedImage, m, 0, n)
  else
    let len := bitSum (fun i => bits (24 + i)) 16
    let total := streamLen len
    let count := if total ≤ n ∨ tm = .zeroFill then len else (n - 40) / 8
    let m1 := extractWritten m pb bits count
    if count < len then (.truncatedImage, m1, len, n)
    else
      (if textValid xm ((List.range len).map (decodedByte bits)) then .ok else .invalidPayloadEncoding, m1, len, total)

end Sys2Proof.Machine
end

