-- ==== Sys2Proof/Safety.lean ====
section
/-! DEFINITION. The terms statements use: a state no foreign access disturbs, the invariant of the machine, the block at
its reset values, and the premises the spec puts on software (backing, no overlap). -/

namespace Sys2Proof.Machine

open Sys2Proof

/-- No race and no outstanding host write: the duties of 70_reset_and_hazards R217 and R223 are kept so far. -/
def State.Quiet (s : State) : Prop := s.races = [] ∧ s.posted = []

/-- No other agent disturbs the byte: no race for it and no outstanding host write to it (70_reset_and_hazards R217,
R223). -/
def Undisturbed (s : State) (a : Addr) : Prop := (∀ r ∈ s.races, r.addr ≠ a) ∧ ∀ c ∈ s.posted, c.1 ≠ a

/-- No other agent disturbs a byte the engine's next step accesses. What the host does outside those bytes, it may do while
BUSY = 1 (42_host_access R177). -/
def State.StepUndisturbed (s : State) : Prop := ∀ a ∈ engineAccesses s, Undisturbed s a

/-- `P_MAGIC != 0x000000`, the premise of 00_scope R9 (93_implementation_defined U5). -/
def State.MagicNotZero (s : State) : Prop := s.platform.magic ≠ 0x000000#24

/-- The block's registers and engine state hold the values of 10_state R50. -/
def State.BlockAtReset (s : State) : Prop :=
  s.done = false ∧ s.cmdIgnored = false ∧ s.result = .ok ∧ s.truncMode = .error ∧ s.textMode = .utf8 ∧
  s.irqEn = false ∧ s.width = 0 ∧ s.height = 0 ∧ s.gridBase = 0 ∧ s.payloadBase = 0 ∧ s.payloadLen = 0 ∧
  s.decodedLen = 0 ∧ s.phase = .idle ∧ s.sN = 0 ∧ s.sGB = 0 ∧ s.sPB = 0 ∧ s.sL = 0 ∧ s.sTM = .error ∧
  s.sXM = .utf8 ∧ s.k = 0 ∧ s.j = 0 ∧ s.cur = 0 ∧ s.hdr = 0 ∧ s.lenacc = 0 ∧ s.acc = 0 ∧ s.dec = []

/-- Where the engine can be in each phase (10_state R42 to R48): the indices in range, the checks of the earlier phases
passed, and for EXTRACT the fields taken so far. -/
def State.PhaseInv (s : State) : Prop :=
  match s.phase with
  | .idle => s.races = []
  | .eLen => s.k = 0 ∧ s.j = 0
  | .eScan => s.k = 0 ∧ s.sL.toNat ≤ Config.maxLen ∧ s.j ≤ s.sL.toNat
  | .eCap => s.k = 0 ∧ s.sL.toNat ≤ Config.maxLen ∧ s.j = s.sL.toNat
  | .eWrite => s.sL.toNat ≤ Config.maxLen ∧ s.j = s.sL.toNat ∧ s.k < streamLen s.sL.toNat ∧ streamLen s.sL.toNat ≤ s.sN
  | .xBits =>
    (s.sTM = .error → s.k ≤ s.sN) ∧
    (24 ≤ s.k → s.hdr = s.platform.magic) ∧
    (s.k < 40 → s.decodedLen = 0 ∧ s.dec = []) ∧
    (40 ≤ s.k →
      s.lenacc = s.decodedLen ∧ s.k < streamLen s.decodedLen.toNat ∧ s.dec.length = (s.k - 40) / 8)

/-- What is true of the races of a running operation (70_reset_and_hazards R217): at most one a byte, each in the
footprint, the byte of memory among the values seen, and the foreign value in memory as long as the engine has not
written the byte. -/
def State.RaceInv (s : State) : Prop :=
  s.races.Pairwise (fun r q => r.addr ≠ q.addr) ∧
  ∀ r ∈ s.races,
    inFootprint s r.addr = true ∧
    s.mem.read r.addr.toNat ∈ r.seen ∧
    (r.engineVal = none → s.mem.read r.addr.toNat = r.hostVal)

/-- The invariant of the machine: memory in canonical form (20_memory R60), the counters in the ranges of 10_state R43 to
R48, BUSY excluding DONE and a result (10_state R25, R27), the phase's own facts, and the reset values while `rst` is
asserted (70_reset_and_hazards R210). -/
def State.Inv (s : State) : Prop :=
  s.mem.wf = true ∧
  (∀ m ∈ s.views, Memory.wf m = true) ∧
  s.sN < 2 ^ 64 ∧
  s.k ≤ maxStream ∧
  s.j ≤ Config.maxLen ∧
  s.dec.length ≤ Config.maxLen ∧
  (s.busy = true → s.done = false ∧ s.result = .ok) ∧
  s.PhaseInv ∧
  s.RaceInv ∧
  (s.rst = true → s.BlockAtReset)

/-- The states agree on everything but the hidden engine state (10_state R43 to R48, without `phase` and `k`, which
STATUS.BUSY and BITPOS show): on the registers, the memory, the inputs and the model's own fields. -/
def SameVisible (s t : State) : Prop :=
  s.platform = t.platform ∧ s.rst = t.rst ∧ s.done = t.done ∧ s.cmdIgnored = t.cmdIgnored ∧ s.result = t.result ∧
  s.truncMode = t.truncMode ∧ s.textMode = t.textMode ∧ s.irqEn = t.irqEn ∧ s.width = t.width ∧
  s.height = t.height ∧ s.gridBase = t.gridBase ∧ s.payloadBase = t.payloadBase ∧ s.payloadLen = t.payloadLen ∧
  s.decodedLen = t.decodedLen ∧ s.phase = t.phase ∧ s.k = t.k ∧ s.mem = t.mem ∧ s.posted = t.posted ∧
  s.races = t.races ∧ s.views = t.views ∧ s.lastRead = t.lastRead ∧ s.script = t.script ∧ s.choices = t.choices

/-- The payload buffer (`len` bytes at `pb`) lies over none of the first `n` red bytes of the grid at `gb`: what
software must see to (70_reset_and_hazards R222, 20_memory R83). -/
def NoOverlap (gb pb : Addr) (len n : Nat) : Prop :=
  ∀ i < len, ∀ p < n, payAddrAt pb i ≠ redAddrAt gb p

/-- Every byte of the running operation's footprint is backed: what software must see to (20_memory R73,
70_reset_and_hazards R214). -/
def State.FootprintBacked (s : State) : Prop := ∀ a : Addr, inFootprint s a = true → backed s a = true

/-- A sequence of bytes matches a row of the table of 41_extract R147. -/
def MatchesRow (r : Utf8Row) (d : List Byte) : Prop :=
  List.Forall₂ (fun range b => inRange range b = true) (r.lead :: r.rest) d

/-- Well-formed UTF-8 in the words of 41_extract R147: "the concatenation of zero or more byte sequences each of which
matches one row of this table". -/
def WellFormedUtf8 (d : List Byte) : Prop :=
  ∃ parts : List (List Byte), d = parts.flatten ∧ ∀ p ∈ parts, ∃ r ∈ utf8Table, MatchesRow r p

end Sys2Proof.Machine
end

