-- ==== Sys2Proof/Certificates/Slice0/Obligations.lean ====
section
/-! DEFINITION. The statements about the machine, each made from rules of spec/. `Quiet` and
`StepUndisturbed` premises are the duties of spec/70_reset_and_hazards.md R217 and R223; what the machine does when they
are broken has statements of its own. -/

open Sys2Proof Sys2Proof.Machine

/-! ## The command words and their meanings -/

/-- 30_encoding R97, the command map, with R96 and R98: each command's word decodes to it, no other word does, and every
other word is rejected as reserved. -/
def Obligations.CommandWordsDecodeAndEncode : Prop :=
  decode 0x00000000#32 = .ok .nop ∧ decode 0x00000001#32 = .ok .embed ∧ decode 0x00000002#32 = .ok .extract ∧
  (∀ i : Instr, i.wellFormed = true → decode (encode i) = .ok i) ∧
  (∀ (w : Word) (i : Instr), decode w = .ok i → w = encode i) ∧
  (∀ w : Word, w ≠ 0x00000000#32 → w ≠ 0x00000001#32 → w ≠ 0x00000002#32 → decode w = .error (.reserved w))

/-- 42_host_access R171. -/
def Obligations.NopChangesNoState : Prop :=
  ∀ s : State, exec .nop s = .next s ∧ command 0x00000000#32 s = .next s

/-- 40_embed R111: EMBED on an idle block. The state equation is the frame too: every field not named is unchanged.
(The model's own field `views` is left out: log entry 7.) -/
def Obligations.EmbedOnIdleBlockStarts : Prop :=
  ∀ s : State, s.busy = false →
    ∃ t : State,
      exec .embed s = .next t ∧
      t = { s with
            sN := s.width.toNat * s.height.toNat
            sGB := s.gridBase
            sPB := s.payloadBase
            sL := s.payloadLen
            k := 0
            j := 0
            done := false
            result := .ok
            phase := .eLen
            views := t.views } ∧
      t.busy = true ∧ regRead t 0x28#6 = 0#32

/-- 41_extract R136: EXTRACT on an idle block. The state equation is the frame too. (The model's own field `views` is left
out: log entry 7; so is the hidden `j`, which R136 does not list: 10_state R49 and log entry 19, stated in `HiddenStateDoesNotSurvive`.) -/
def Obligations.ExtractOnIdleBlockStarts : Prop :=
  ∀ s : State, s.busy = false →
    ∃ t : State,
      exec .extract s = .next t ∧
      t = { s with
            sN := s.width.toNat * s.height.toNat
            sGB := s.gridBase
            sPB := s.payloadBase
            sTM := s.truncMode
            sXM := s.textMode
            k := 0
            j := t.j
            dec := []
            decodedLen := 0
            done := false
            result := .ok
            phase := .xBits
            views := t.views } ∧
      t.busy = true ∧ regRead t 0x28#6 = 0#32

/-- 42_host_access R169, the command decoder on every word and every state: R172 (a nonzero command while BUSY = 1 only
sets CMD_IGNORED, and so do EMBED and EXTRACT themselves), R173 and 30_encoding R98 (a reserved word only sets
CMD_IGNORED). -/
def Obligations.CommandDecoderFollowsItsTable : Prop :=
  (∀ (w : Word) (s : State),
    command w s =
      if w = 0x00000000#32 then .next s
      else if s.busy = true then .next { s with cmdIgnored := true }
      else if w = 0x00000001#32 then .next (startEmbed s)
      else if w = 0x00000002#32 then .next (startExtract s)
      else .next { s with cmdIgnored := true }) ∧
  (∀ (s : State) (i : Instr), s.busy = true → i ≠ .nop → exec i s = .next { s with cmdIgnored := true })

/-- A step whose next event is the register write of a word to CMD runs the decoded instruction (42_host_access R165,
R169); the word takes no effect while `rst` is asserted (log entry 10). The instruction the host places is the one the
next step runs (log entry 11). With no event left each step is a turn of the engine (70_reset_and_hazards R227; log entry
1). -/
def Obligations.StepRunsTheDecodedCommand : Prop :=
  (∀ (s : State) (rest : List Event) (w : Word), s.script = .regWrite 0x00#6 .word w :: rest →
    (s.rst = false →
      (∀ i : Instr, decode w = .ok i → step s = exec i { s with script := rest }) ∧
      (∀ e : DecodeError, decode w = .error e → step s = .next { s with script := rest, cmdIgnored := true })) ∧
    (s.rst = true → step s = .next { s with script := rest })) ∧
  (∀ (s : State) (w : Word) (i : Instr), decode w = .ok i →
    step (s.withFetchWord 32 w.toNat) = exec i { s with rst := false }) ∧
  (∀ s : State, s.script = [] → step s = .next (engineTurn s))

/-! ## Reset -/

/-- 10_state R50, the reset value of every piece of state. -/
def Obligations.ResetStateHoldsResetValues : Prop :=
  State.reset.BlockAtReset ∧ State.reset.busy = false ∧ State.reset.irq = false ∧
  regRead State.reset 0x00#6 = 0#32 ∧ regRead State.reset 0x28#6 = 0#32 ∧
  regRead State.reset 0x2C#6 = Config.pMagic.setWidth 32

/-- 70_reset_and_hazards R210, R211 and 10_state R51: `rst` asserted puts every register and the engine state at the
reset values, no `Finish` is performed, every register reads 0 but MAGIC, and no byte of memory changes (but for a raced
byte, whose value the race leaves open: R217). -/
def Obligations.AssertedResetRestoresTheBlock : Prop :=
  ∀ (s : State) (rest : List Event), s.script = .rstAssert :: rest →
    ∃ t : State,
      step s = .next t ∧ t.rst = true ∧ t.BlockAtReset ∧ t.busy = false ∧ t.irq = false ∧
      t.platform = s.platform ∧ t.script = rest ∧ t.posted = s.posted ∧
      (∀ off : BitVec 6, regRead t off = if off = 0x2C#6 then s.platform.magic.setWidth 32 else 0#32) ∧
      (∀ a : Addr, (∀ r ∈ s.races, r.addr ≠ a) → t.mem.read a.toNat = s.mem.read a.toNat)

/-- 70_reset_and_hazards R210: while `rst` is asserted, and when it is released, the reset values stay. -/
def Obligations.BlockIsHeldWhileResetIsAsserted : Prop :=
  ∀ s t : State, s.rst = true → s.BlockAtReset → step s = .next t → t.BlockAtReset

/-! ## The register window -/

/-- 42_host_access R167, what each register reads, with the result codes of 60_exceptions R186. -/
def Obligations.RegisterReadValues : Prop :=
  ∀ s : State,
    regRead s 0x00#6 = 0#32 ∧
    regRead s 0x04#6 = (0#29 ++ BitVec.ofBool s.cmdIgnored ++ BitVec.ofBool s.done ++ BitVec.ofBool s.busy : BitVec 32) ∧
    regRead s 0x08#6 = (if s.busy = true then 0#32 else (0#28 ++ s.result.code : BitVec 32)) ∧
    regRead s 0x0C#6 =
      (0#29 ++ BitVec.ofBool s.irqEn ++ BitVec.ofBool s.textMode.bit ++ BitVec.ofBool s.truncMode.bit : BitVec 32) ∧
    regRead s 0x10#6 = s.width ∧ regRead s 0x14#6 = s.height ∧ regRead s 0x18#6 = s.gridBase ∧
    regRead s 0x1C#6 = s.payloadBase ∧ regRead s 0x20#6 = s.payloadLen ∧
    regRead s 0x24#6 = (0#16 ++ s.decodedLen : BitVec 32) ∧ regRead s 0x28#6 = BitVec.ofNat 32 s.k ∧
    regRead s 0x2C#6 = (0#8 ++ s.platform.magic : BitVec 32) ∧
    regRead s 0x30#6 = 0#32 ∧ regRead s 0x34#6 = 0#32 ∧ regRead s 0x38#6 = 0#32 ∧ regRead s 0x3C#6 = 0#32 ∧
    Result.ok.code = 0#4 ∧ Result.payloadTooLarge.code = 1#4 ∧ Result.nonAsciiPayload.code = 2#4 ∧
    Result.insufficientCapacity.code = 3#4 ∧ Result.missingOrInvalidHeader.code = 4#4 ∧
    Result.invalidPayloadEncoding.code = 5#4 ∧ Result.truncatedImage.code = 6#4 ∧
    TruncMode.error.bit = false ∧ TruncMode.zeroFill.bit = true ∧
    TextMode.utf8.bit = false ∧ TextMode.ascii.bit = true

/-- 42_host_access R168, what a write of each register does, whatever BUSY is; and outside reset the step whose next event
is a register write of any of the sixteen registers performs it. (Of a CONFIG write the model's own field `views` is left
out: log entry 7.) -/
def Obligations.RegisterWriteEffects : Prop :=
  (∀ (s : State) (rest : List Event) (off : BitVec 6) (v : Word), s.script = .regWrite off .word v :: rest →
    off.toNat % 4 = 0 → s.rst = false → step s = regWrite off v { s with script := rest }) ∧
  ∀ (s : State) (v : Word),
    regWrite 0x00#6 v s = command v s ∧
    regWrite 0x04#6 v s =
      .next { s with
              done := if v.getLsbD 1 = true then false else s.done
              cmdIgnored := if v.getLsbD 2 = true then false else s.cmdIgnored } ∧
    regWrite 0x08#6 v s = .next s ∧
    (∃ vs : List Memory,
      regWrite 0x0C#6 v s =
        .next { s with
                truncMode := if v.getLsbD 0 = true then .zeroFill else .error
                textMode := if v.getLsbD 1 = true then .ascii else .utf8
                irqEn := v.getLsbD 2
                views := vs }) ∧
    regWrite 0x10#6 v s = .next { s with width := v } ∧
    regWrite 0x14#6 v s = .next { s with height := v } ∧
    regWrite 0x18#6 v s = .next { s with gridBase := v } ∧
    regWrite 0x1C#6 v s = .next { s with payloadBase := v } ∧
    regWrite 0x20#6 v s = .next { s with payloadLen := v } ∧
    regWrite 0x24#6 v s = .next s ∧ regWrite 0x28#6 v s = .next s ∧ regWrite 0x2C#6 v s = .next s ∧
    regWrite 0x30#6 v s = .next s ∧ regWrite 0x34#6 v s = .next s ∧ regWrite 0x38#6 v s = .next s ∧
    regWrite 0x3C#6 v s = .next s

/-- 42_host_access R166: an access that is not an aligned 32-bit access. -/
def Obligations.IllegalRegisterAccessDoesNothing : Prop :=
  ∀ (s : State) (off : BitVec 6) (size : AccessSize) (v : Word), (size ≠ .word ∨ off.toNat % 4 ≠ 0) →
    runEvent (.regWrite off size v) s = .next s ∧
    runEvent (.regRead off size) s = .next { s with lastRead := some 0#32 }

/-- 42_host_access R165: a register read returns the register and changes no state of the block or of memory. (`lastRead`
and `views` are the model's own fields: log entries 12 and 7.) -/
def Obligations.RegisterReadChangesNothing : Prop :=
  ∀ (s : State) (rest : List Event) (off : BitVec 6), s.script = .regRead off .word :: rest → off.toNat % 4 = 0 →
    ∃ vs : List Memory,
      step s = .next { s with script := rest, lastRead := some (regRead s off), views := vs }

/-- 70_reset_and_hazards R216 with 10_state R28 to R33: a register read after a write returns the written value, or for
CONFIG its three defined bits. -/
def Obligations.ReadAfterRegisterWrite : Prop :=
  ∀ (s : State) (v : Word),
    (∀ off ∈ [0x10#6, 0x14#6, 0x18#6, 0x1C#6, 0x20#6],
      ∃ t : State, regWrite off v s = .next t ∧ regRead t off = v) ∧
    ∃ t : State, regWrite 0x0C#6 v s = .next t ∧ regRead t 0x0C#6 = v &&& 7#32

/-- 10_state R21 and 42_host_access R178: the platform address REG_BASE + off, an exact sum (00_scope R11), selects offset
off, and a bus transaction there is the register access at off. The model's choices: a platform address is any natural
number (log entry 18); and, the second clause, an address outside the 64 bytes of the window selects nothing, so a
transaction there does nothing (log entry 15). -/
def Obligations.BusAddressSelectsTheWindow : Prop :=
  ∀ s : State,
    (∀ off : BitVec 6,
      busAddr s off = s.platform.regBase + off.toNat ∧
      regOffset s (busAddr s off) = some off ∧
      ∀ (size : AccessSize) (v : Word),
        runEvent (.busRead (busAddr s off) size) s = runEvent (.regRead off size) s ∧
        runEvent (.busWrite (busAddr s off) size v) s = runEvent (.regWrite off size v) s) ∧
    (∀ addr : Nat, (∀ off : BitVec 6, addr ≠ busAddr s off) →
      regOffset s addr = none ∧
      ∀ (size : AccessSize) (v : Word),
        runEvent (.busRead addr size) s = .next { s with lastRead := none } ∧
        runEvent (.busWrite addr size v) s = .next s)

/-- 60_exceptions R196: the interrupt level, when it rises and when it falls. -/
def Obligations.IrqFollowsDoneAndEnable : Prop :=
  ∀ (s : State) (r : Result) (v : Word),
    s.irq = (s.done && s.irqEn) ∧
    (finish r s).irq = s.irqEn ∧
    (startEmbed s).irq = false ∧ (startExtract s).irq = false ∧
    (v.getLsbD 1 = true → (clearStatus v s).irq = false) ∧
    (writeConfig v s).irq = (s.done && v.getLsbD 2) ∧
    (resetBlock s).irq = false

/-! ## The engine's steps -/

/-- 60_exceptions R193: `Finish` does exactly this. (`races`, `views`, `choices` are the model's own fields; where another
agent has raced with the operation, R217 says what memory holds.) -/
def Obligations.FinishDoesExactly : Prop :=
  ∀ (r : Result) (s : State),
    (finish r s).result = r ∧ (finish r s).busy = false ∧ (finish r s).done = true ∧ (finish r s).phase = .idle ∧
    finish r s =
      { s with
        result := r
        done := true
        phase := .idle
        mem := (finish r s).mem
        races := (finish r s).races
        views := (finish r s).views
        choices := (finish r s).choices } ∧
    (s.races = [] → (finish r s).mem = s.mem)

/-- 40_embed R113: phase E_SCAN, on a byte no other agent disturbs. -/
def Obligations.EmbedAsciiScan : Prop :=
  ∀ s : State, s.phase = .eScan → s.rst = false → s.StepUndisturbed →
    (s.j = s.sL.toNat → engineTurn s = { s with phase := .eCap }) ∧
    (s.j ≠ s.sL.toNat → backed s (payAddr s s.j) = true →
      engineTurn s =
        if 0x80 ≤ (s.mem.read ((s.sPB.toNat + s.j) % 2 ^ 32)).toNat then finish .nonAsciiPayload s
        else { s with j := s.j + 1 })

/-- 40_embed R112 and R114: the phases E_LEN and E_CAP, neither of which accesses memory. -/
def Obligations.EmbedLengthAndCapacityChecks : Prop :=
  ∀ s : State, s.rst = false →
    (s.phase = .eLen →
      engineAccesses s = [] ∧
      engineTurn s = if s.sL.toNat > 65535 then finish .payloadTooLarge s else { s with phase := .eScan }) ∧
    (s.phase = .eCap →
      engineAccesses s = [] ∧
      engineTurn s =
        if s.sN < 40 + 8 * s.sL.toNat then finish .insufficientCapacity s else { s with k := 0, phase := .eWrite })

/-- 40_embed R115: one write step, on bytes no other agent disturbs. -/
def Obligations.EmbedWriteStep : Prop :=
  ∀ s : State, s.phase = .eWrite → s.rst = false → s.StepUndisturbed → (∀ a ∈ engineAccesses s, backed s a = true) →
    let fetched : Byte :=
      if 40 ≤ s.k ∧ (s.k - 40) % 8 = 0 then s.mem.read ((s.sPB.toNat + (s.k - 40) / 8) % 2 ^ 32) else s.cur
    let b : Bool :=
      if s.k < 24 then s.platform.magic.getLsbD s.k
      else if s.k < 40 then s.sL.getLsbD (s.k - 24)
      else fetched.getLsbD ((s.k - 40) % 8)
    let red : Nat := (s.sGB.toNat + 3 * s.k) % 2 ^ 32
    let u : State :=
      { s with
        cur := fetched
        mem := s.mem.write red ((s.mem.read red &&& 0xFE#8) ||| (if b = true then 1#8 else 0#8))
        k := s.k + 1 }
    engineTurn s = if s.k + 1 = 40 + 8 * s.sL.toNat then finish .ok u else u

/-- 41_extract R137: one step of EXTRACT, on bytes no other agent disturbs: the bit taken, its place, the step of `k`, and
what happens at each field boundary. -/
def Obligations.ExtractStep : Prop :=
  ∀ s : State, s.phase = .xBits → s.rst = false → s.StepUndisturbed → (∀ a ∈ engineAccesses s, backed s a = true) →
    (s.sN ≤ s.k → s.sTM = .error → engineTurn s = finish .truncatedImage s) ∧
    ((s.k < s.sN ∨ s.sTM = .zeroFill) →
      let b : Bool := if s.k < s.sN then (s.mem.read ((s.sGB.toNat + 3 * s.k) % 2 ^ 32)).getLsbD 0 else false
      let header : BitVec 24 := setBit s.hdr s.k b
      let length : BitVec 16 := setBit s.lenacc (s.k - 24) b
      let byte : Byte := setBit s.acc ((s.k - 40) % 8) b
      engineTurn s =
        if s.k < 23 then { s with hdr := header, k := s.k + 1 }
        else if s.k = 23 then
          (if header ≠ s.platform.magic then finish .missingOrInvalidHeader { s with hdr := header, k := 24 }
           else { s with hdr := header, k := 24 })
        else if s.k < 39 then { s with lenacc := length, k := s.k + 1 }
        else if s.k = 39 then
          (if length = 0#16 then finish .ok { s with lenacc := length, k := 40, decodedLen := length }
           else { s with lenacc := length, k := 40, decodedLen := length })
        else if (s.k - 40) % 8 ≠ 7 then { s with acc := byte, k := s.k + 1 }
        else
          let u : State :=
            { s with
              acc := byte
              k := s.k + 1
              mem := s.mem.write ((s.sPB.toNat + (s.k - 40) / 8) % 2 ^ 32) byte
              dec := s.dec ++ [byte] }
          if s.k + 1 = 40 + 8 * s.decodedLen.toNat then
            finish (if textValid s.sXM (s.dec ++ [byte]) = true then .ok else .invalidPayloadEncoding) u
          else u)

/-- 41_extract R138 and R139: where the grid has no pixel `k`, ERROR mode ends with code 6 at BITPOS = sN with no access
and no write; ZERO_FILL mode takes the bit as 0, reads nothing, and never gives code 6. So, by 41_extract R153 with the
premise of 00_scope R9 that P_MAGIC is not 0, an EXTRACT that takes 24 zero bits, from red bytes or from missing pixels in
ZERO_FILL mode, ends after 24 steps with code 4, BITPOS = 24, DECODED_LEN = 0 and no byte of memory changed. -/
def Obligations.MissingPixelsFollowTheTruncationMode : Prop :=
  (∀ s : State, s.Inv → s.phase = .xBits → s.sTM = .error → s.sN ≤ s.k →
    engineAccesses s = [] ∧ engineTurn s = finish .truncatedImage s ∧ (engineTurn s).k = s.sN ∧
    (s.races = [] → (engineTurn s).mem = s.mem)) ∧
  (∀ s : State, s.phase = .xBits → s.sTM = .zeroFill → s.result ≠ .truncatedImage →
    (engineTurn s).result ≠ .truncatedImage ∧
    (s.sN ≤ s.k → s.rst = false → engineStuck s = false →
      (∀ a ∈ engineAccesses s, a = payAddr s ((s.k - 40) / 8)) ∧ engineTurn s = extractAct (placeBit false s))) ∧
  (∀ s : State, s.rst = false → s.Quiet → s.MagicNotZero →
    (24 ≤ s.width.toNat * s.height.toNat ∨ s.truncMode = .zeroFill) →
    (∀ p < 24, p < s.width.toNat * s.height.toNat →
      backed s (redAddrAt s.gridBase p) = true ∧ redBit (redByte s.mem s.gridBase p) = false) →
    let t : State := runEngine 24 (startExtract s)
    t.phase = .idle ∧ t.done = true ∧ t.result = .missingOrInvalidHeader ∧ t.k = 24 ∧ t.decodedLen = 0 ∧
    t.mem = s.mem)

/-- 00_scope R10 and 41_extract R140: placing a bit sets that bit and no other. -/
def Obligations.PlacingABitSetsOneBit : Prop :=
  ∀ (w : Nat) (v : BitVec w) (i n : Nat) (b : Bool), n < w →
    (setBit v i b).getLsbD n = if n = i then b else v.getLsbD n

/-- 70_reset_and_hazards R228 and R210, 20_memory R73 (93_implementation_defined U4): the engine takes no step while the
block is idle or in reset, nor when its next access is not backed; and no event but reset frees an engine so stuck.
70_reset_and_hazards R227, 42_host_access R176: in every other state its turn makes progress; the machine always has a
next state; and no transaction of the host or of the platform, to whatever address, moves a running engine or keeps it
from its next step. -/
def Obligations.EngineWaitsWhenIdleInResetOrStuck : Prop :=
  (∀ s : State, s.phase = .idle → engineTurn s = s ∧ engineAccesses s = []) ∧
  (∀ s : State, s.rst = true → engineTurn s = s) ∧
  (∀ s t : State, engineStuck s = true → step s = .next t → s.script.head? ≠ some .rstAssert →
    engineTurn s = s ∧ t.busy = true ∧ engineStuck t = true) ∧
  (∀ s : State, s.phase ≠ .idle → s.rst = false → engineStuck s = false → engineTurn s ≠ s) ∧
  (∀ s : State, ∃ t : State, step s = .next t) ∧
  (∀ (s t : State) (e : Event), s.busy = true →
    e ∉ [Event.engine, .waitDone, .waitIrq, .rstAssert, .rstRelease] → runEvent e s = .next t →
    t.phase = s.phase ∧ t.k = s.k ∧ t.j = s.j ∧ t.rst = s.rst ∧ engineStuck t = engineStuck s)

/-! ## Addresses, bits and encodings -/

/-- 20_memory R63 and R64: the addresses wrap modulo 2^32; below the largest stream and the largest payload they are
pairwise distinct. -/
def Obligations.EngineAddressesWrapAndAreDistinct : Prop :=
  (∀ (base : Addr) (p : Nat), (redAddrAt base p).toNat = (base.toNat + 3 * p) % 2 ^ 32) ∧
  (∀ (base : Addr) (i : Nat), (payAddrAt base i).toNat = (base.toNat + i) % 2 ^ 32) ∧
  (∀ (base : Addr) (p q : Nat), p < 524320 → q < 524320 → redAddrAt base p = redAddrAt base q → p = q) ∧
  (∀ (base : Addr) (i n : Nat), i < 65535 → n < 65535 → payAddrAt base i = payAddrAt base n → i = n)

/-- 30_encoding R93 and R94: the red write and the red read. -/
def Obligations.RedWriteChangesOnlyBitZero : Prop :=
  ∀ (r : Byte) (b : Bool),
    newRed r b = (r &&& 0xFE#8) ||| (if b = true then 1#8 else 0#8) ∧
    redBit r = r.getLsbD 0 ∧
    redBit (newRed r b) = b ∧
    ∀ i : Nat, 1 ≤ i → (newRed r b).getLsbD i = r.getLsbD i

/-- 30_encoding R88, R89, R90: where each bit of the header, the length and the payload stands in the stream. -/
def Obligations.StreamFieldsStandAtTheirBits : Prop :=
  ∀ (magic : BitVec 24) (len : BitVec 16) (pay : Nat → Byte),
    (∀ k < 24, streamBit magic len pay k = magic.getLsbD k) ∧
    (∀ m < 3, ∀ i < 8, streamBit magic len pay (8 * m + i) = (magicByte magic m).getLsbD i) ∧
    (∀ i < 16, streamBit magic len pay (24 + i) = len.getLsbD i) ∧
    (∀ n, ∀ i < 8, streamBit magic len pay (40 + 8 * n + i) = (pay n).getLsbD i)

/-- 30_encoding R95: the fields assembled from the stream EMBED writes are those that were embedded. -/
def Obligations.StreamDecodesToWhatWasEncoded : Prop :=
  ∀ (magic : BitVec 24) (len : Nat) (pay : Nat → Byte), len ≤ 65535 →
    let bits := streamBit magic (BitVec.ofNat 16 len) pay
    bitSum bits 24 = magic.toNat ∧
    bitSum (fun i => bits (24 + i)) 16 = len ∧
    ∀ n < len, decodedByte bits n = pay n

/-- 41_extract R146 and R147, the text checks: ASCII is every byte below 0x80; UTF-8 is exactly the concatenations of
byte sequences of the table, accepts every ASCII sequence, and never a byte C0, C1 or F5 to FF. -/
def Obligations.TextChecksAreAsciiAndWellFormedUtf8 : Prop :=
  (∀ d : List Byte, textValid .ascii d = true ↔ ∀ b ∈ d, b.toNat < 0x80) ∧
  (∀ d : List Byte, textValid .utf8 d = true ↔ WellFormedUtf8 d) ∧
  (∀ d : List Byte, textValid .ascii d = true → textValid .utf8 d = true) ∧
  (∀ d : List Byte, textValid .utf8 d = true → ∀ b ∈ d, b ≠ 0xC0#8 ∧ b ≠ 0xC1#8 ∧ b.toNat < 0xF5)

/-! ## Memory: frames, footprint, races, visibility -/

/-- 20_memory R70 and R60: a byte reads as it was last written, a write leaves every other byte, the memory keeps its
canonical form, and memories that read the same are equal. -/
def Obligations.MemoryReadsWhatWasWritten : Prop :=
  (∀ (m : Memory) (a b : Nat) (v : Byte), m.wf = true → a < 2 ^ 32 →
    (m.write a v).read a = v ∧ (b ≠ a → (m.write a v).read b = m.read b) ∧ (m.write a v).wf = true) ∧
  (∀ m n : Memory, m.wf = true → n.wf = true → (∀ a, m.read a = n.read a) → m = n)

/-- The memory frame of a turn of the engine (20_memory R65): a byte that is neither one of the step's accesses nor raced
for reads as before. -/
def Obligations.EngineTurnMemoryFrame : Prop :=
  ∀ (s : State) (a : Addr), a ∉ engineAccesses s → (∀ r ∈ s.races, r.addr ≠ a) →
    (engineTurn s).mem.read a.toNat = s.mem.read a.toNat

/-- The register frame of a turn of the engine: it writes only STATUS (through the phase and DONE), RESULT, DECODED_LEN,
BITPOS and the hidden state (10_state R40, 42_host_access R177: "no register bit other than its rules name"). -/
def Obligations.EngineTurnRegisterFrame : Prop :=
  ∀ s : State,
    (engineTurn s).platform = s.platform ∧ (engineTurn s).rst = s.rst ∧ (engineTurn s).cmdIgnored = s.cmdIgnored ∧
    (engineTurn s).truncMode = s.truncMode ∧ (engineTurn s).textMode = s.textMode ∧ (engineTurn s).irqEn = s.irqEn ∧
    (engineTurn s).width = s.width ∧ (engineTurn s).height = s.height ∧ (engineTurn s).gridBase = s.gridBase ∧
    (engineTurn s).payloadBase = s.payloadBase ∧ (engineTurn s).payloadLen = s.payloadLen ∧
    (engineTurn s).sN = s.sN ∧ (engineTurn s).sGB = s.sGB ∧ (engineTurn s).sPB = s.sPB ∧ (engineTurn s).sL = s.sL ∧
    (engineTurn s).sTM = s.sTM ∧ (engineTurn s).sXM = s.sXM ∧ (engineTurn s).posted = s.posted ∧
    (engineTurn s).script = s.script ∧ (engineTurn s).lastRead = s.lastRead ∧
    (s.phase ≠ .xBits → (engineTurn s).decodedLen = s.decodedLen)

/-- 70_reset_and_hazards R219: the footprint, by its red bytes and payload bytes. -/
def Obligations.FootprintIsTheRedAndPayloadBytes : Prop :=
  ∀ (s : State) (a : Addr),
    (s.phase = .idle → inFootprint s a = false) ∧
    (s.phase = .eLen ∨ s.phase = .eScan ∨ s.phase = .eCap ∨ s.phase = .eWrite →
      (inFootprint s a = true ↔
        s.sL.toNat ≤ 65535 ∧ ((∃ i < s.sL.toNat, a = payAddr s i) ∨ ∃ p < 40 + 8 * s.sL.toNat, a = redAddr s p))) ∧
    (s.phase = .xBits →
      (inFootprint s a = true ↔ (∃ p < min s.sN 524320, a = redAddr s p) ∨ ∃ i < 65535, a = payAddr s i))

/-- 20_memory R65, R73, R74 and 70_reset_and_hazards R219: the bytes the engine reaches are in the footprint, so with a
backed footprint the engine is never stuck. -/
def Obligations.EngineStaysInItsFootprint : Prop :=
  ∀ s : State, s.Inv →
    (∀ a ∈ engineAccesses s, inFootprint s a = true) ∧ (s.FootprintBacked → engineStuck s = false)

/-- 70_reset_and_hazards R217 and 20_memory R75: an engine read gives the byte of memory where no other agent races for
it, and else one of the old and new values; nothing but the free value's counter changes. -/
def Obligations.EngineReadGivesAnAllowedValue : Prop :=
  ∀ (s : State) (a : Addr),
    (racedVals s a = [] → postedVals s a = [] → engineRead s a = (s.mem.read a.toNat, s)) ∧
    (engineRead s a).1 ∈ s.mem.read a.toNat :: (racedVals s a ++ postedVals s a) ∧
    (engineRead s a).2 = { s with choices := (engineRead s a).2.choices }

/-- 70_reset_and_hazards R217: a host write to a byte of the running operation's footprint leaves both the old and the
new value open to the engine's reads, and memory holds the new one. -/
def Obligations.FootprintWriteMakesARace : Prop :=
  ∀ (s : State) (a : Addr) (v : Byte), s.Inv → inFootprint s a = true →
    (hostStore s a v).mem.read a.toNat = v ∧
    v ∈ racedVals (hostStore s a v) a ∧
    s.mem.read a.toNat ∈ racedVals (hostStore s a v) a ∧
    ∀ u ∈ racedVals s a, u ∈ racedVals (hostStore s a v) a

/-- 70_reset_and_hazards R217: when the operation ends, a raced byte holds the engine's value or the other agent's; if the
engine has not written it, the other agent's. -/
def Obligations.RacedByteEndsWithEitherValue : Prop :=
  ∀ (s : State) (res : Result) (r : Race), s.Inv → r ∈ s.races →
    (finish res s).races = [] ∧
    ((finish res s).mem.read r.addr.toNat = r.hostVal ∨
      ∃ w, r.engineVal = some w ∧ (finish res s).mem.read r.addr.toNat = w)

/-- 20_memory R77: once the host has read BUSY = 0, or `irq` has risen, it reads the engine's bytes. `irq` rises at
`Finish`, or by a CONFIG write that sets IRQ_EN while DONE = 1 (60_exceptions R196). -/
def Obligations.HostSeesEngineWritesAfterCompletion : Prop :=
  (∀ (s : State) (a : Addr), s.busy = false → postedVals s a = [] →
    (hostRegRead 0x04#6 .word s).lastRead = some (statusWord s) ∧
    hostLoad (hostRegRead 0x04#6 .word s) a = (s.mem.read a.toNat, hostRegRead 0x04#6 .word s)) ∧
  (∀ (s : State) (r : Result) (a : Addr), (finish r s).irq = true → postedVals s a = [] →
    hostLoad (finish r s) a = ((finish r s).mem.read a.toNat, finish r s)) ∧
  (∀ (s : State) (v : Word) (a : Addr), s.Inv → s.done = true → v.getLsbD 2 = true → postedVals s a = [] →
    ∃ t : State,
      regWrite 0x0C#6 v s = .next t ∧ t.irq = true ∧ t.mem = s.mem ∧ hostLoad t a = (s.mem.read a.toNat, t))

/-- 70_reset_and_hazards R218: an early host read gives the byte of memory, an older one, or a value of a race; it changes
nothing but the free value's counter. -/
def Obligations.EarlyHostReadGivesOldOrNew : Prop :=
  ∀ (s : State) (a : Addr), postedVals s a = [] →
    ((hostLoad s a).1 = s.mem.read a.toNat ∨ (∃ m ∈ s.views, (hostLoad s a).1 = Memory.read m a.toNat) ∨
      (engineWrote s a = true ∧ (hostLoad s a).1 ∈ racedVals s a)) ∧
    (hostLoad s a).2 = { s with choices := (hostLoad s a).2.choices }

/-- 20_memory R76: a host write completed before the command is seen by the engine of that operation. Where an earlier
write of the host to the same byte is still outstanding, the conclusion rests on the model's choice that host writes
complete in the order of their issue (log entry 8): 70_reset_and_hazards R223 leaves that read open. -/
def Obligations.CompletedHostWriteIsSeenByTheEngine : Prop :=
  ∀ (s : State) (a : Addr) (v : Byte), s.Inv → s.busy = false →
    engineRead (startEmbed (hostMemWrite a v s)) a = (v, startEmbed (hostMemWrite a v s)) ∧
    engineRead (startExtract (hostMemWrite a v s)) a = (v, startExtract (hostMemWrite a v s))

/-- 42_host_access R176: the block does not see a host memory access: a write or a read of the host leaves every register
and the engine state (only memory, the read's data and the model's own fields change). 20_memory R70: a read leaves all of
memory; a completed write puts its value at its byte and leaves every other byte, but those of the host's earlier writes
that complete with it. The model's choices: an issued write leaves memory until it completes, and issued writes complete
in their order (log entry 8); a write where no memory is backed does nothing (log entry 5). -/
def Obligations.HostMemoryAccessLeavesTheBlock : Prop :=
  (∀ (s t : State) (a : Addr), runEvent (.memRead a) s = .next t →
    t.mem = s.mem ∧ t.posted = s.posted ∧ t.races = s.races ∧ t.views = s.views) ∧
  (∀ (s t : State) (a : Addr) (v : Byte), s.mem.wf = true → backed s a = true →
    runEvent (.memWrite a v) s = .next t →
    t.posted = [] ∧ t.mem.read a.toNat = v ∧
    ∀ b : Addr, b ≠ a → (∀ c ∈ s.posted, c.1 ≠ b) → t.mem.read b.toNat = s.mem.read b.toNat) ∧
  (∀ (s : State) (a : Addr) (v : Byte), backed s a = true →
    runEvent (.memPost a v) s = .next { s with posted := s.posted ++ [(a, v)] }) ∧
  (∀ (s : State) (a : Addr) (v : Byte), backed s a = false →
    runEvent (.memWrite a v) s = .next s ∧ runEvent (.memPost a v) s = .next s) ∧
  (∀ (s t : State) (rest : List (Addr × Byte)) (a : Addr) (v : Byte), s.mem.wf = true → s.posted = (a, v) :: rest →
    runEvent .drain s = .next t →
    t.posted = rest ∧ t.mem.read a.toNat = v ∧ ∀ b : Addr, b ≠ a → t.mem.read b.toNat = s.mem.read b.toNat) ∧
  (∀ s t : State, s.mem.wf = true → runEvent .fence s = .next t →
    t.posted = [] ∧
    (∀ (a : Addr) (v : Byte), (postedVals s a).getLast? = some v → t.mem.read a.toNat = v) ∧
    ∀ b : Addr, (∀ c ∈ s.posted, c.1 ≠ b) → t.mem.read b.toNat = s.mem.read b.toNat) ∧
  ∀ (s t : State) (e : Event), (∃ a v, e = .memWrite a v) ∨ (∃ a v, e = .memPost a v) ∨ (∃ a, e = .memRead a) ∨
      e = .drain ∨ e = .fence →
    runEvent e s = .next t →
    t = { s with
          mem := t.mem, posted := t.posted, races := t.races, views := t.views
          lastRead := t.lastRead, choices := t.choices }

/-! ## Rules about the whole machine -/

/-- The state after reset keeps the invariant. -/
def Obligations.ResetStateKeepsTheInvariant : Prop := State.reset.Inv

/-- Every step keeps the invariant (20_memory R60, 10_state R24, R25, R27, R42 to R48, 70_reset_and_hazards R210, R217). -/
def Obligations.EveryStepKeepsTheInvariant : Prop :=
  ∀ s t : State, s.Inv → step s = .next t → t.Inv

/-- 00_scope R8 and 10_state R36: no step changes P_MAGIC (nor the other parameters of the platform). -/
def Obligations.NoStepChangesThePlatform : Prop :=
  ∀ s t : State, step s = .next t → t.platform = s.platform ∧ regRead t 0x2C#6 = regRead s 0x2C#6

/-- 20_memory R80: only a register write of CMD, with the word of EMBED or EXTRACT, starts an operation. -/
def Obligations.OnlyACommandStartsAnOperation : Prop :=
  ∀ s t : State, step s = .next t → s.busy = false → t.busy = true →
    s.rst = false ∧
    ∃ (w : Word) (rest : List Event), (w = 0x00000001#32 ∨ w = 0x00000002#32) ∧
      (s.script = .regWrite 0x00#6 .word w :: rest ∨
        ∃ addr : Nat, regOffset s addr = some 0x00#6 ∧ s.script = .busWrite addr .word w :: rest)

/-- 42_host_access R172 and 60_exceptions R193: a running operation ends by `Finish`, which sets DONE, or by reset. -/
def Obligations.OperationEndsOnlyByFinishOrReset : Prop :=
  ∀ s t : State, step s = .next t → s.busy = true → t.busy = false →
    t.done = true ∨ s.script.head? = some .rstAssert

/-- 10_state R43 and 42_host_access R175: nothing but reset changes a latch of a running operation. -/
def Obligations.LatchesHoldDuringAnOperation : Prop :=
  ∀ s t : State, step s = .next t → s.busy = true → s.script.head? ≠ some .rstAssert →
    t.sN = s.sN ∧ t.sGB = s.sGB ∧ t.sPB = s.sPB ∧ t.sL = s.sL ∧ t.sTM = s.sTM ∧ t.sXM = s.sXM

/-- 10_state R26: CMD_IGNORED is cleared only by a STATUS write with bit 2 set and by reset, and set only by a nonzero
command word that starts nothing. -/
def Obligations.CmdIgnoredIsSticky : Prop :=
  ∀ s t : State, step s = .next t →
    (s.cmdIgnored = true → t.cmdIgnored = false →
      s.script.head? = some .rstAssert ∨
      ∃ (v : Word) (rest : List Event), v.getLsbD 2 = true ∧
        (s.script = .regWrite 0x04#6 .word v :: rest ∨
          ∃ addr : Nat, regOffset s addr = some 0x04#6 ∧ s.script = .busWrite addr .word v :: rest)) ∧
    (s.cmdIgnored = false → t.cmdIgnored = true →
      ∃ (w : Word) (rest : List Event), w ≠ 0x00000000#32 ∧ (s.busy = true ∨ legalCommand w = false) ∧
        (s.script = .regWrite 0x00#6 .word w :: rest ∨
          ∃ addr : Nat, regOffset s addr = some 0x00#6 ∧ s.script = .busWrite addr .word w :: rest))

/-- 10_state R44: while an operation goes on, `k` stays or grows by one; it is never wrapped. -/
def Obligations.BitPositionOnlyCountsUp : Prop :=
  ∀ s t : State, s.Inv → step s = .next t → s.busy = true → s.script.head? ≠ some .rstAssert →
    (t.k = s.k ∨ t.k = s.k + 1) ∧ t.k ≤ 524320 ∧ (regRead t 0x28#6).toNat = t.k

/-- 70_reset_and_hazards R220: a command at about the time of the `Finish` step: before it, any nonzero command word is
ignored and the operation finishes all the same; after it, EMBED or EXTRACT starts a new operation (a reserved word starts
none: 42_host_access R173). -/
def Obligations.CommandCompletionRaceHasBothOrders : Prop :=
  ∀ s : State, s.busy = true → (engineTurn s).busy = false →
    (∀ w : Word, w ≠ 0x00000000#32 → command w s = .next { s with cmdIgnored := true }) ∧
    engineTurn { s with cmdIgnored := true } = { engineTurn s with cmdIgnored := true } ∧
    command 0x00000001#32 (engineTurn s) = .next (startEmbed (engineTurn s)) ∧
    command 0x00000002#32 (engineTurn s) = .next (startExtract (engineTurn s)) ∧
    ∀ w : Word, legalCommand w = false → command w (engineTurn s) = .next { engineTurn s with cmdIgnored := true }

/-- 10_state R49: every start sets `k`, `j` and (for EXTRACT) `dec` afresh, and no hidden state survives from one operation
into the next: whatever the hidden state is at the start, every later state of the operation is visibly the same. (That
EXTRACT's `j` is set to 0 is log entry 19.) -/
def Obligations.HiddenStateDoesNotSurvive : Prop :=
  (∀ s : State,
    (startEmbed s).k = 0 ∧ (startEmbed s).j = 0 ∧
    (startExtract s).k = 0 ∧ (startExtract s).j = 0 ∧ (startExtract s).dec = []) ∧
  ∀ s t : State, SameVisible s t → ∀ n : Nat,
    SameVisible (runEngine n (startEmbed s)) (runEngine n (startEmbed t)) ∧
    SameVisible (runEngine n (startExtract s)) (runEngine n (startExtract t))

/-! ## Whole operations -/

/-- 40_embed R118: whatever the point EMBED has reached, only bit 0 of red bytes of the stream's pixels can have changed. -/
def Obligations.EmbedChangesOnlyRedBitZero : Prop :=
  ∀ (s : State) (n : Nat) (a : Addr), s.Quiet → s.mem.wf = true →
    (∀ i : Nat, 1 ≤ i →
      ((runEngine n (startEmbed s)).mem.read a.toNat).getLsbD i = (s.mem.read a.toNat).getLsbD i) ∧
    ((∀ p < 40 + 8 * s.payloadLen.toNat, a ≠ redAddrAt s.gridBase p) →
      (runEngine n (startEmbed s)).mem.read a.toNat = s.mem.read a.toNat)

/-- 40_embed R117 and 60_exceptions R198: the first failing check, in the order length, ASCII, capacity, gives the code,
and an EMBED that fails leaves memory as it was and BITPOS = 0. No premise on overlap. -/
def Obligations.EmbedReportsTheFirstFailingCheck : Prop :=
  ∀ s : State, s.rst = false → s.Quiet → (startEmbed s).FootprintBacked →
    ∃ n : Nat,
      (runEngine n (startEmbed s)).phase = .idle ∧ (runEngine n (startEmbed s)).done = true ∧
      (runEngine n (startEmbed s)).result =
        (if s.payloadLen.toNat > 65535 then .payloadTooLarge
         else if hasNonAscii s.mem s.payloadBase s.payloadLen.toNat = true then .nonAsciiPayload
         else if s.width.toNat * s.height.toNat < 40 + 8 * s.payloadLen.toNat then .insufficientCapacity
         else .ok) ∧
      ((runEngine n (startEmbed s)).result ≠ .ok →
        (runEngine n (startEmbed s)).mem = s.mem ∧ (runEngine n (startEmbed s)).k = 0)

/-- 40_embed R121: EMBED is `EmbedFn`, where the payload buffer lies over none of the stream's red bytes. -/
def Obligations.EmbedComputesEmbedFn : Prop :=
  ∀ s : State, s.rst = false → s.Quiet → (startEmbed s).FootprintBacked →
    (s.payloadLen.toNat ≤ 65535 →
      NoOverlap s.gridBase s.payloadBase s.payloadLen.toNat (40 + 8 * s.payloadLen.toNat)) →
    ∃ n : Nat,
      (runEngine n (startEmbed s)).phase = .idle ∧ (runEngine n (startEmbed s)).done = true ∧
      ((runEngine n (startEmbed s)).result, (runEngine n (startEmbed s)).mem, (runEngine n (startEmbed s)).k) =
        embedFn s.platform.magic s.mem (s.width.toNat * s.height.toNat) s.gridBase s.payloadBase s.payloadLen.toNat

/-- 40_embed R116: what `EmbedFn` leaves in memory: each red byte of the stream holds its old value with the stream bit in
bit 0, and every other byte is unchanged. -/
def Obligations.EmbedFnLeavesTheStream : Prop :=
  ∀ (magic : BitVec 24) (m : Memory) (gb pb : Addr) (len : Nat), m.wf = true → len ≤ 65535 →
    (∀ p < 40 + 8 * len,
      redByte (embedWritten magic m gb pb len (40 + 8 * len)) gb p =
        newRed (redByte m gb p) (streamBit magic (BitVec.ofNat 16 len) (payloadByte m pb) p)) ∧
    (∀ a : Addr, (∀ p < 40 + 8 * len, a ≠ redAddrAt gb p) →
      (embedWritten magic m gb pb len (40 + 8 * len)).read a.toNat = m.read a.toNat)

/-- 40_embed R122: every EMBED finishes, within `1 + (L + 1) + 1 + T` engine steps for L at most 65535, and in exactly one
step for a larger L. -/
def Obligations.EmbedFinishesWithinItsBound : Prop :=
  ∀ s : State, s.rst = false → (startEmbed s).FootprintBacked →
    (s.payloadLen.toNat ≤ 65535 →
      ∃ n ≤ 1 + (s.payloadLen.toNat + 1) + 1 + (40 + 8 * s.payloadLen.toNat),
        (runEngine n (startEmbed s)).phase = .idle) ∧
    (65535 < s.payloadLen.toNat →
      (startEmbed s).phase ≠ .idle ∧ (runEngine 1 (startEmbed s)).phase = .idle)

/-- 41_extract R149: EXTRACT writes only payload bytes. -/
def Obligations.ExtractWritesOnlyTheOutputBuffer : Prop :=
  ∀ (s : State) (n : Nat) (a : Addr), s.Quiet →
    (∀ i < 65535, a ≠ payAddrAt s.payloadBase i) →
    (runEngine n (startExtract s)).mem.read a.toNat = s.mem.read a.toNat

/-- 41_extract R151: EXTRACT is `ExtractFn`, where the output buffer lies over none of the red bytes it reads. -/
def Obligations.ExtractComputesExtractFn : Prop :=
  ∀ s : State, s.rst = false → s.Quiet → (startExtract s).FootprintBacked →
    let count := s.width.toNat * s.height.toNat
    let fn := extractFn s.platform.magic s.mem count s.gridBase s.payloadBase s.truncMode s.textMode
    NoOverlap s.gridBase s.payloadBase fn.2.2.1 (min count (40 + 8 * fn.2.2.1)) →
    ∃ n : Nat,
      (runEngine n (startExtract s)).phase = .idle ∧ (runEngine n (startExtract s)).done = true ∧
      ((runEngine n (startExtract s)).result, (runEngine n (startExtract s)).mem,
        (runEngine n (startExtract s)).decodedLen.toNat, (runEngine n (startExtract s)).k) = fn

/-- 41_extract R154: every EXTRACT finishes, and the number of its steps is the final BITPOS, plus one for code 6; it is at
most 524320. -/
def Obligations.ExtractStepsAreItsBitPosition : Prop :=
  ∀ s : State, s.rst = false → (startExtract s).FootprintBacked →
    ∃ n ≤ 524320,
      (∀ i < n, (runEngine i (startExtract s)).phase ≠ .idle) ∧
      (runEngine n (startExtract s)).phase = .idle ∧
      n = (runEngine n (startExtract s)).k +
            (if (runEngine n (startExtract s)).result = .truncatedImage then 1 else 0)

/-- 41_extract R152, the round trip: an EMBED that passes its checks finishes with code 0, and an EXTRACT of the same grid
later, with its red bits kept and an output buffer that overlaps none of them, finishes with code 0 and gives back the
length and the payload. -/
def Obligations.RoundTripGivesBackThePayload : Prop :=
  ∀ s : State, s.rst = false → s.Quiet → (startEmbed s).FootprintBacked →
    let len := s.payloadLen.toNat
    len ≤ 65535 → (∀ i < len, (payloadByte s.mem s.payloadBase i).toNat < 0x80) →
    40 + 8 * len ≤ s.width.toNat * s.height.toNat →
    NoOverlap s.gridBase s.payloadBase len (40 + 8 * len) →
    s.mem.wf = true →
    ∃ n : Nat,
      (runEngine n (startEmbed s)).phase = .idle ∧ (runEngine n (startEmbed s)).result = .ok ∧
      ∀ t : State, t.rst = false → t.Quiet → t.mem.wf = true → t.platform = s.platform →
        t.width = s.width → t.height = s.height → t.gridBase = s.gridBase →
        (∀ p < 40 + 8 * len,
          redBit (redByte t.mem s.gridBase p) = redBit (redByte (runEngine n (startEmbed s)).mem s.gridBase p)) →
        (∀ p < 40 + 8 * len, backed t (redAddrAt s.gridBase p) = true) →
        (∀ i < len, backed t (payAddrAt t.payloadBase i) = true) →
        NoOverlap s.gridBase t.payloadBase len (40 + 8 * len) →
        ∃ m : Nat,
          (runEngine m (startExtract t)).phase = .idle ∧ (runEngine m (startExtract t)).result = .ok ∧
          (runEngine m (startExtract t)).decodedLen.toNat = len ∧
          ∀ i < len,
            payloadByte (runEngine m (startExtract t)).mem t.payloadBase i = payloadByte s.mem s.payloadBase i
end

