-- ==== Sys2Proof/Laws/Memory.lean ====
section
/-! SUPPORT. What memory operations do (spec/20_memory.md R60, R70): a read after a write, and that the canonical form is
kept. -/

namespace Sys2Proof.Machine

open Sys2Proof

@[simp] theorem Memory.read_nil (a : Nat) : Memory.read [] a = unlistedByte := rfl

@[simp] theorem Memory.wf_nil : Memory.wf [] = true := rfl

/-- A canonical list from `lo` on is canonical from any smaller address on. -/
theorem Memory.wfFrom_mono {lo lo' : Nat} (h : lo' ≤ lo) : ∀ {m : Memory}, Memory.wfFrom lo m = true →
    Memory.wfFrom lo' m = true
  | [], _ => rfl
  | (a, v) :: m, hm => by
    simp only [Memory.wfFrom, Bool.and_eq_true, decide_eq_true_eq] at hm ⊢
    exact ⟨⟨⟨h.trans hm.1.1.1, hm.1.1.2⟩, hm.1.2⟩, hm.2⟩

/-- Below the first address of a canonical list nothing is listed. -/
theorem Memory.read_below {lo a : Nat} (h : a < lo) : ∀ {m : Memory}, Memory.wfFrom lo m = true →
    Memory.read m a = unlistedByte
  | [], _ => rfl
  | (b, v) :: m, hm => by
    simp only [Memory.wfFrom, Bool.and_eq_true, decide_eq_true_eq] at hm
    have hb : b ≠ a := by omega
    simp only [Memory.read, if_neg hb]
    exact Memory.read_below (by omega) hm.2

/-- A write leaves every other byte. -/
theorem Memory.read_write_ne (m : Memory) {a b : Nat} (v : Byte) (h : b ≠ a) :
    (Memory.write m a v).read b = Memory.read m b := by
  induction m with
  | nil =>
    simp only [Memory.write]
    split <;> simp [Memory.read, Ne.symm h]
  | cons c m ih =>
    obtain ⟨x, w⟩ := c
    simp only [Memory.write]
    split
    · split <;> simp [Memory.read, Ne.symm h]
    · split
      · next hax =>
        subst hax
        split <;> simp [Memory.read, Ne.symm h]
      · simp only [Memory.read, ih]

/-- A byte reads as it was last written, in a canonical memory. -/
theorem Memory.read_write_of_wfFrom {lo : Nat} {m : Memory} (a : Nat) (v : Byte) (hm : Memory.wfFrom lo m = true) :
    (Memory.write m a v).read a = v := by
  induction m generalizing lo with
  | nil =>
    simp only [Memory.write]
    split
    · next hv => simp [hv]
    · simp [Memory.read]
  | cons c m ih =>
    obtain ⟨x, w⟩ := c
    have hm' := hm
    simp only [Memory.wfFrom, Bool.and_eq_true, decide_eq_true_eq] at hm
    simp only [Memory.write]
    split
    · next hlt =>
      split
      · next hv =>
        have hx : x ≠ a := by omega
        rw [Memory.read, if_neg hx, hv]
        exact Memory.read_below (lo := x + 1) (by omega) hm.2
      · simp [Memory.read]
    · split
      · next hax =>
        subst hax
        split
        · next hv =>
          rw [hv]
          exact Memory.read_below (lo := a + 1) (by omega) hm.2
        · simp [Memory.read]
      · next hne =>
        rw [Memory.read, if_neg (by omega)]
        exact ih hm.2

/-- A byte reads as it was last written. -/
theorem Memory.read_write_same {m : Memory} (a : Nat) (v : Byte) (hm : Memory.wf m = true) :
    (Memory.write m a v).read a = v :=
  Memory.read_write_of_wfFrom a v hm

/-- A write keeps the canonical form from `lo` on. -/
theorem Memory.wfFrom_write {lo : Nat} {m : Memory} {a : Nat} (v : Byte) (hlo : lo ≤ a) (ha : a < 2 ^ 32)
    (hm : Memory.wfFrom lo m = true) : Memory.wfFrom lo (Memory.write m a v) = true := by
  induction m generalizing lo with
  | nil =>
    simp only [Memory.write]
    split
    · rfl
    · next hv =>
      simp only [Memory.wfFrom, Bool.and_eq_true, decide_eq_true_eq]
      exact ⟨⟨⟨hlo, ha⟩, hv⟩, trivial⟩
  | cons c m ih =>
    obtain ⟨x, w⟩ := c
    have hm' := hm
    simp only [Memory.wfFrom, Bool.and_eq_true, decide_eq_true_eq] at hm
    obtain ⟨⟨⟨h1, h2⟩, h3⟩, h4⟩ := hm
    simp only [Memory.write]
    split
    · next hlt =>
      split
      · exact hm'
      · next hv =>
        simp only [Memory.wfFrom, Bool.and_eq_true, decide_eq_true_eq]
        exact ⟨⟨⟨hlo, ha⟩, hv⟩, ⟨⟨⟨by omega, h2⟩, h3⟩, h4⟩⟩
    · split
      · next hax =>
        subst hax
        split
        · exact Memory.wfFrom_mono (by omega) h4
        · next hv =>
          simp only [Memory.wfFrom, Bool.and_eq_true, decide_eq_true_eq]
          exact ⟨⟨⟨hlo, ha⟩, hv⟩, h4⟩
      · simp only [Memory.wfFrom, Bool.and_eq_true, decide_eq_true_eq]
        exact ⟨⟨⟨h1, h2⟩, h3⟩, ih (by omega) h4⟩

/-- A write keeps the canonical form. -/
theorem Memory.wf_write {m : Memory} (a : Addr) (v : Byte) (hm : Memory.wf m = true) :
    Memory.wf (Memory.write m a.toNat v) = true :=
  Memory.wfFrom_write v (Nat.zero_le _) a.isLt hm

end Sys2Proof.Machine
end

