-- ==== Sys2Proof/Laws/State.lean ====
section
/-! SUPPORT. What each named update does to each field of State, one lemma a field, so that no later proof unfolds a record
update. -/

namespace Sys2Proof.Machine

open Sys2Proof

@[simp] theorem State.busy_eq_true (s : State) : s.busy = true ↔ s.phase ≠ .idle := by simp [State.busy]

@[simp] theorem State.busy_eq_false (s : State) : s.busy = false ↔ s.phase = .idle := by simp [State.busy]

/-! ### setCmdIgnored -/

@[simp] theorem setCmdIgnored_platform (s : State) : (setCmdIgnored s).platform = s.platform := rfl
@[simp] theorem setCmdIgnored_rst (s : State) : (setCmdIgnored s).rst = s.rst := rfl
@[simp] theorem setCmdIgnored_done (s : State) : (setCmdIgnored s).done = s.done := rfl
@[simp] theorem setCmdIgnored_cmdIgnored (s : State) : (setCmdIgnored s).cmdIgnored = true := rfl
@[simp] theorem setCmdIgnored_result (s : State) : (setCmdIgnored s).result = s.result := rfl
@[simp] theorem setCmdIgnored_truncMode (s : State) : (setCmdIgnored s).truncMode = s.truncMode := rfl
@[simp] theorem setCmdIgnored_textMode (s : State) : (setCmdIgnored s).textMode = s.textMode := rfl
@[simp] theorem setCmdIgnored_irqEn (s : State) : (setCmdIgnored s).irqEn = s.irqEn := rfl
@[simp] theorem setCmdIgnored_width (s : State) : (setCmdIgnored s).width = s.width := rfl
@[simp] theorem setCmdIgnored_height (s : State) : (setCmdIgnored s).height = s.height := rfl
@[simp] theorem setCmdIgnored_gridBase (s : State) : (setCmdIgnored s).gridBase = s.gridBase := rfl
@[simp] theorem setCmdIgnored_payloadBase (s : State) : (setCmdIgnored s).payloadBase = s.payloadBase := rfl
@[simp] theorem setCmdIgnored_payloadLen (s : State) : (setCmdIgnored s).payloadLen = s.payloadLen := rfl
@[simp] theorem setCmdIgnored_decodedLen (s : State) : (setCmdIgnored s).decodedLen = s.decodedLen := rfl
@[simp] theorem setCmdIgnored_phase (s : State) : (setCmdIgnored s).phase = s.phase := rfl
@[simp] theorem setCmdIgnored_sN (s : State) : (setCmdIgnored s).sN = s.sN := rfl
@[simp] theorem setCmdIgnored_sGB (s : State) : (setCmdIgnored s).sGB = s.sGB := rfl
@[simp] theorem setCmdIgnored_sPB (s : State) : (setCmdIgnored s).sPB = s.sPB := rfl
@[simp] theorem setCmdIgnored_sL (s : State) : (setCmdIgnored s).sL = s.sL := rfl
@[simp] theorem setCmdIgnored_sTM (s : State) : (setCmdIgnored s).sTM = s.sTM := rfl
@[simp] theorem setCmdIgnored_sXM (s : State) : (setCmdIgnored s).sXM = s.sXM := rfl
@[simp] theorem setCmdIgnored_k (s : State) : (setCmdIgnored s).k = s.k := rfl
@[simp] theorem setCmdIgnored_j (s : State) : (setCmdIgnored s).j = s.j := rfl
@[simp] theorem setCmdIgnored_cur (s : State) : (setCmdIgnored s).cur = s.cur := rfl
@[simp] theorem setCmdIgnored_hdr (s : State) : (setCmdIgnored s).hdr = s.hdr := rfl
@[simp] theorem setCmdIgnored_lenacc (s : State) : (setCmdIgnored s).lenacc = s.lenacc := rfl
@[simp] theorem setCmdIgnored_acc (s : State) : (setCmdIgnored s).acc = s.acc := rfl
@[simp] theorem setCmdIgnored_dec (s : State) : (setCmdIgnored s).dec = s.dec := rfl
@[simp] theorem setCmdIgnored_mem (s : State) : (setCmdIgnored s).mem = s.mem := rfl
@[simp] theorem setCmdIgnored_posted (s : State) : (setCmdIgnored s).posted = s.posted := rfl
@[simp] theorem setCmdIgnored_races (s : State) : (setCmdIgnored s).races = s.races := rfl
@[simp] theorem setCmdIgnored_views (s : State) : (setCmdIgnored s).views = s.views := rfl
@[simp] theorem setCmdIgnored_lastRead (s : State) : (setCmdIgnored s).lastRead = s.lastRead := rfl
@[simp] theorem setCmdIgnored_script (s : State) : (setCmdIgnored s).script = s.script := rfl
@[simp] theorem setCmdIgnored_choices (s : State) : (setCmdIgnored s).choices = s.choices := rfl

/-! ### clearStatus -/

@[simp] theorem clearStatus_platform (v : Word) (s : State) : (clearStatus v s).platform = s.platform := rfl
@[simp] theorem clearStatus_rst (v : Word) (s : State) : (clearStatus v s).rst = s.rst := rfl
@[simp] theorem clearStatus_done (v : Word) (s : State) : (clearStatus v s).done = (s.done && !v.getLsbD 1) := rfl
@[simp] theorem clearStatus_cmdIgnored (v : Word) (s : State) : (clearStatus v s).cmdIgnored = (s.cmdIgnored && !v.getLsbD 2) := rfl
@[simp] theorem clearStatus_result (v : Word) (s : State) : (clearStatus v s).result = s.result := rfl
@[simp] theorem clearStatus_truncMode (v : Word) (s : State) : (clearStatus v s).truncMode = s.truncMode := rfl
@[simp] theorem clearStatus_textMode (v : Word) (s : State) : (clearStatus v s).textMode = s.textMode := rfl
@[simp] theorem clearStatus_irqEn (v : Word) (s : State) : (clearStatus v s).irqEn = s.irqEn := rfl
@[simp] theorem clearStatus_width (v : Word) (s : State) : (clearStatus v s).width = s.width := rfl
@[simp] theorem clearStatus_height (v : Word) (s : State) : (clearStatus v s).height = s.height := rfl
@[simp] theorem clearStatus_gridBase (v : Word) (s : State) : (clearStatus v s).gridBase = s.gridBase := rfl
@[simp] theorem clearStatus_payloadBase (v : Word) (s : State) : (clearStatus v s).payloadBase = s.payloadBase := rfl
@[simp] theorem clearStatus_payloadLen (v : Word) (s : State) : (clearStatus v s).payloadLen = s.payloadLen := rfl
@[simp] theorem clearStatus_decodedLen (v : Word) (s : State) : (clearStatus v s).decodedLen = s.decodedLen := rfl
@[simp] theorem clearStatus_phase (v : Word) (s : State) : (clearStatus v s).phase = s.phase := rfl
@[simp] theorem clearStatus_sN (v : Word) (s : State) : (clearStatus v s).sN = s.sN := rfl
@[simp] theorem clearStatus_sGB (v : Word) (s : State) : (clearStatus v s).sGB = s.sGB := rfl
@[simp] theorem clearStatus_sPB (v : Word) (s : State) : (clearStatus v s).sPB = s.sPB := rfl
@[simp] theorem clearStatus_sL (v : Word) (s : State) : (clearStatus v s).sL = s.sL := rfl
@[simp] theorem clearStatus_sTM (v : Word) (s : State) : (clearStatus v s).sTM = s.sTM := rfl
@[simp] theorem clearStatus_sXM (v : Word) (s : State) : (clearStatus v s).sXM = s.sXM := rfl
@[simp] theorem clearStatus_k (v : Word) (s : State) : (clearStatus v s).k = s.k := rfl
@[simp] theorem clearStatus_j (v : Word) (s : State) : (clearStatus v s).j = s.j := rfl
@[simp] theorem clearStatus_cur (v : Word) (s : State) : (clearStatus v s).cur = s.cur := rfl
@[simp] theorem clearStatus_hdr (v : Word) (s : State) : (clearStatus v s).hdr = s.hdr := rfl
@[simp] theorem clearStatus_lenacc (v : Word) (s : State) : (clearStatus v s).lenacc = s.lenacc := rfl
@[simp] theorem clearStatus_acc (v : Word) (s : State) : (clearStatus v s).acc = s.acc := rfl
@[simp] theorem clearStatus_dec (v : Word) (s : State) : (clearStatus v s).dec = s.dec := rfl
@[simp] theorem clearStatus_mem (v : Word) (s : State) : (clearStatus v s).mem = s.mem := rfl
@[simp] theorem clearStatus_posted (v : Word) (s : State) : (clearStatus v s).posted = s.posted := rfl
@[simp] theorem clearStatus_races (v : Word) (s : State) : (clearStatus v s).races = s.races := rfl
@[simp] theorem clearStatus_views (v : Word) (s : State) : (clearStatus v s).views = s.views := rfl
@[simp] theorem clearStatus_lastRead (v : Word) (s : State) : (clearStatus v s).lastRead = s.lastRead := rfl
@[simp] theorem clearStatus_script (v : Word) (s : State) : (clearStatus v s).script = s.script := rfl
@[simp] theorem clearStatus_choices (v : Word) (s : State) : (clearStatus v s).choices = s.choices := rfl

/-! ### choose_state -/

@[simp] theorem choose_state_platform (s : State) (v : Byte) (vs : List Byte) : ((choose s v vs).2).platform = s.platform := rfl
@[simp] theorem choose_state_rst (s : State) (v : Byte) (vs : List Byte) : ((choose s v vs).2).rst = s.rst := rfl
@[simp] theorem choose_state_done (s : State) (v : Byte) (vs : List Byte) : ((choose s v vs).2).done = s.done := rfl
@[simp] theorem choose_state_cmdIgnored (s : State) (v : Byte) (vs : List Byte) : ((choose s v vs).2).cmdIgnored = s.cmdIgnored := rfl
@[simp] theorem choose_state_result (s : State) (v : Byte) (vs : List Byte) : ((choose s v vs).2).result = s.result := rfl
@[simp] theorem choose_state_truncMode (s : State) (v : Byte) (vs : List Byte) : ((choose s v vs).2).truncMode = s.truncMode := rfl
@[simp] theorem choose_state_textMode (s : State) (v : Byte) (vs : List Byte) : ((choose s v vs).2).textMode = s.textMode := rfl
@[simp] theorem choose_state_irqEn (s : State) (v : Byte) (vs : List Byte) : ((choose s v vs).2).irqEn = s.irqEn := rfl
@[simp] theorem choose_state_width (s : State) (v : Byte) (vs : List Byte) : ((choose s v vs).2).width = s.width := rfl
@[simp] theorem choose_state_height (s : State) (v : Byte) (vs : List Byte) : ((choose s v vs).2).height = s.height := rfl
@[simp] theorem choose_state_gridBase (s : State) (v : Byte) (vs : List Byte) : ((choose s v vs).2).gridBase = s.gridBase := rfl
@[simp] theorem choose_state_payloadBase (s : State) (v : Byte) (vs : List Byte) : ((choose s v vs).2).payloadBase = s.payloadBase := rfl
@[simp] theorem choose_state_payloadLen (s : State) (v : Byte) (vs : List Byte) : ((choose s v vs).2).payloadLen = s.payloadLen := rfl
@[simp] theorem choose_state_decodedLen (s : State) (v : Byte) (vs : List Byte) : ((choose s v vs).2).decodedLen = s.decodedLen := rfl
@[simp] theorem choose_state_phase (s : State) (v : Byte) (vs : List Byte) : ((choose s v vs).2).phase = s.phase := rfl
@[simp] theorem choose_state_sN (s : State) (v : Byte) (vs : List Byte) : ((choose s v vs).2).sN = s.sN := rfl
@[simp] theorem choose_state_sGB (s : State) (v : Byte) (vs : List Byte) : ((choose s v vs).2).sGB = s.sGB := rfl
@[simp] theorem choose_state_sPB (s : State) (v : Byte) (vs : List Byte) : ((choose s v vs).2).sPB = s.sPB := rfl
@[simp] theorem choose_state_sL (s : State) (v : Byte) (vs : List Byte) : ((choose s v vs).2).sL = s.sL := rfl
@[simp] theorem choose_state_sTM (s : State) (v : Byte) (vs : List Byte) : ((choose s v vs).2).sTM = s.sTM := rfl
@[simp] theorem choose_state_sXM (s : State) (v : Byte) (vs : List Byte) : ((choose s v vs).2).sXM = s.sXM := rfl
@[simp] theorem choose_state_k (s : State) (v : Byte) (vs : List Byte) : ((choose s v vs).2).k = s.k := rfl
@[simp] theorem choose_state_j (s : State) (v : Byte) (vs : List Byte) : ((choose s v vs).2).j = s.j := rfl
@[simp] theorem choose_state_cur (s : State) (v : Byte) (vs : List Byte) : ((choose s v vs).2).cur = s.cur := rfl
@[simp] theorem choose_state_hdr (s : State) (v : Byte) (vs : List Byte) : ((choose s v vs).2).hdr = s.hdr := rfl
@[simp] theorem choose_state_lenacc (s : State) (v : Byte) (vs : List Byte) : ((choose s v vs).2).lenacc = s.lenacc := rfl
@[simp] theorem choose_state_acc (s : State) (v : Byte) (vs : List Byte) : ((choose s v vs).2).acc = s.acc := rfl
@[simp] theorem choose_state_dec (s : State) (v : Byte) (vs : List Byte) : ((choose s v vs).2).dec = s.dec := rfl
@[simp] theorem choose_state_mem (s : State) (v : Byte) (vs : List Byte) : ((choose s v vs).2).mem = s.mem := rfl
@[simp] theorem choose_state_posted (s : State) (v : Byte) (vs : List Byte) : ((choose s v vs).2).posted = s.posted := rfl
@[simp] theorem choose_state_races (s : State) (v : Byte) (vs : List Byte) : ((choose s v vs).2).races = s.races := rfl
@[simp] theorem choose_state_views (s : State) (v : Byte) (vs : List Byte) : ((choose s v vs).2).views = s.views := rfl
@[simp] theorem choose_state_lastRead (s : State) (v : Byte) (vs : List Byte) : ((choose s v vs).2).lastRead = s.lastRead := rfl
@[simp] theorem choose_state_script (s : State) (v : Byte) (vs : List Byte) : ((choose s v vs).2).script = s.script := rfl

/-! ### engineRead_state -/

@[simp] theorem engineRead_state_platform (s : State) (a : Addr) : ((engineRead s a).2).platform = s.platform := rfl
@[simp] theorem engineRead_state_rst (s : State) (a : Addr) : ((engineRead s a).2).rst = s.rst := rfl
@[simp] theorem engineRead_state_done (s : State) (a : Addr) : ((engineRead s a).2).done = s.done := rfl
@[simp] theorem engineRead_state_cmdIgnored (s : State) (a : Addr) : ((engineRead s a).2).cmdIgnored = s.cmdIgnored := rfl
@[simp] theorem engineRead_state_result (s : State) (a : Addr) : ((engineRead s a).2).result = s.result := rfl
@[simp] theorem engineRead_state_truncMode (s : State) (a : Addr) : ((engineRead s a).2).truncMode = s.truncMode := rfl
@[simp] theorem engineRead_state_textMode (s : State) (a : Addr) : ((engineRead s a).2).textMode = s.textMode := rfl
@[simp] theorem engineRead_state_irqEn (s : State) (a : Addr) : ((engineRead s a).2).irqEn = s.irqEn := rfl
@[simp] theorem engineRead_state_width (s : State) (a : Addr) : ((engineRead s a).2).width = s.width := rfl
@[simp] theorem engineRead_state_height (s : State) (a : Addr) : ((engineRead s a).2).height = s.height := rfl
@[simp] theorem engineRead_state_gridBase (s : State) (a : Addr) : ((engineRead s a).2).gridBase = s.gridBase := rfl
@[simp] theorem engineRead_state_payloadBase (s : State) (a : Addr) : ((engineRead s a).2).payloadBase = s.payloadBase := rfl
@[simp] theorem engineRead_state_payloadLen (s : State) (a : Addr) : ((engineRead s a).2).payloadLen = s.payloadLen := rfl
@[simp] theorem engineRead_state_decodedLen (s : State) (a : Addr) : ((engineRead s a).2).decodedLen = s.decodedLen := rfl
@[simp] theorem engineRead_state_phase (s : State) (a : Addr) : ((engineRead s a).2).phase = s.phase := rfl
@[simp] theorem engineRead_state_sN (s : State) (a : Addr) : ((engineRead s a).2).sN = s.sN := rfl
@[simp] theorem engineRead_state_sGB (s : State) (a : Addr) : ((engineRead s a).2).sGB = s.sGB := rfl
@[simp] theorem engineRead_state_sPB (s : State) (a : Addr) : ((engineRead s a).2).sPB = s.sPB := rfl
@[simp] theorem engineRead_state_sL (s : State) (a : Addr) : ((engineRead s a).2).sL = s.sL := rfl
@[simp] theorem engineRead_state_sTM (s : State) (a : Addr) : ((engineRead s a).2).sTM = s.sTM := rfl
@[simp] theorem engineRead_state_sXM (s : State) (a : Addr) : ((engineRead s a).2).sXM = s.sXM := rfl
@[simp] theorem engineRead_state_k (s : State) (a : Addr) : ((engineRead s a).2).k = s.k := rfl
@[simp] theorem engineRead_state_j (s : State) (a : Addr) : ((engineRead s a).2).j = s.j := rfl
@[simp] theorem engineRead_state_cur (s : State) (a : Addr) : ((engineRead s a).2).cur = s.cur := rfl
@[simp] theorem engineRead_state_hdr (s : State) (a : Addr) : ((engineRead s a).2).hdr = s.hdr := rfl
@[simp] theorem engineRead_state_lenacc (s : State) (a : Addr) : ((engineRead s a).2).lenacc = s.lenacc := rfl
@[simp] theorem engineRead_state_acc (s : State) (a : Addr) : ((engineRead s a).2).acc = s.acc := rfl
@[simp] theorem engineRead_state_dec (s : State) (a : Addr) : ((engineRead s a).2).dec = s.dec := rfl
@[simp] theorem engineRead_state_mem (s : State) (a : Addr) : ((engineRead s a).2).mem = s.mem := rfl
@[simp] theorem engineRead_state_posted (s : State) (a : Addr) : ((engineRead s a).2).posted = s.posted := rfl
@[simp] theorem engineRead_state_races (s : State) (a : Addr) : ((engineRead s a).2).races = s.races := rfl
@[simp] theorem engineRead_state_views (s : State) (a : Addr) : ((engineRead s a).2).views = s.views := rfl
@[simp] theorem engineRead_state_lastRead (s : State) (a : Addr) : ((engineRead s a).2).lastRead = s.lastRead := rfl
@[simp] theorem engineRead_state_script (s : State) (a : Addr) : ((engineRead s a).2).script = s.script := rfl

/-! ### engineWrite -/

@[simp] theorem engineWrite_platform (s : State) (a : Addr) (v : Byte) : (engineWrite s a v).platform = s.platform := rfl
@[simp] theorem engineWrite_rst (s : State) (a : Addr) (v : Byte) : (engineWrite s a v).rst = s.rst := rfl
@[simp] theorem engineWrite_done (s : State) (a : Addr) (v : Byte) : (engineWrite s a v).done = s.done := rfl
@[simp] theorem engineWrite_cmdIgnored (s : State) (a : Addr) (v : Byte) : (engineWrite s a v).cmdIgnored = s.cmdIgnored := rfl
@[simp] theorem engineWrite_result (s : State) (a : Addr) (v : Byte) : (engineWrite s a v).result = s.result := rfl
@[simp] theorem engineWrite_truncMode (s : State) (a : Addr) (v : Byte) : (engineWrite s a v).truncMode = s.truncMode := rfl
@[simp] theorem engineWrite_textMode (s : State) (a : Addr) (v : Byte) : (engineWrite s a v).textMode = s.textMode := rfl
@[simp] theorem engineWrite_irqEn (s : State) (a : Addr) (v : Byte) : (engineWrite s a v).irqEn = s.irqEn := rfl
@[simp] theorem engineWrite_width (s : State) (a : Addr) (v : Byte) : (engineWrite s a v).width = s.width := rfl
@[simp] theorem engineWrite_height (s : State) (a : Addr) (v : Byte) : (engineWrite s a v).height = s.height := rfl
@[simp] theorem engineWrite_gridBase (s : State) (a : Addr) (v : Byte) : (engineWrite s a v).gridBase = s.gridBase := rfl
@[simp] theorem engineWrite_payloadBase (s : State) (a : Addr) (v : Byte) : (engineWrite s a v).payloadBase = s.payloadBase := rfl
@[simp] theorem engineWrite_payloadLen (s : State) (a : Addr) (v : Byte) : (engineWrite s a v).payloadLen = s.payloadLen := rfl
@[simp] theorem engineWrite_decodedLen (s : State) (a : Addr) (v : Byte) : (engineWrite s a v).decodedLen = s.decodedLen := rfl
@[simp] theorem engineWrite_phase (s : State) (a : Addr) (v : Byte) : (engineWrite s a v).phase = s.phase := rfl
@[simp] theorem engineWrite_sN (s : State) (a : Addr) (v : Byte) : (engineWrite s a v).sN = s.sN := rfl
@[simp] theorem engineWrite_sGB (s : State) (a : Addr) (v : Byte) : (engineWrite s a v).sGB = s.sGB := rfl
@[simp] theorem engineWrite_sPB (s : State) (a : Addr) (v : Byte) : (engineWrite s a v).sPB = s.sPB := rfl
@[simp] theorem engineWrite_sL (s : State) (a : Addr) (v : Byte) : (engineWrite s a v).sL = s.sL := rfl
@[simp] theorem engineWrite_sTM (s : State) (a : Addr) (v : Byte) : (engineWrite s a v).sTM = s.sTM := rfl
@[simp] theorem engineWrite_sXM (s : State) (a : Addr) (v : Byte) : (engineWrite s a v).sXM = s.sXM := rfl
@[simp] theorem engineWrite_k (s : State) (a : Addr) (v : Byte) : (engineWrite s a v).k = s.k := rfl
@[simp] theorem engineWrite_j (s : State) (a : Addr) (v : Byte) : (engineWrite s a v).j = s.j := rfl
@[simp] theorem engineWrite_cur (s : State) (a : Addr) (v : Byte) : (engineWrite s a v).cur = s.cur := rfl
@[simp] theorem engineWrite_hdr (s : State) (a : Addr) (v : Byte) : (engineWrite s a v).hdr = s.hdr := rfl
@[simp] theorem engineWrite_lenacc (s : State) (a : Addr) (v : Byte) : (engineWrite s a v).lenacc = s.lenacc := rfl
@[simp] theorem engineWrite_acc (s : State) (a : Addr) (v : Byte) : (engineWrite s a v).acc = s.acc := rfl
@[simp] theorem engineWrite_dec (s : State) (a : Addr) (v : Byte) : (engineWrite s a v).dec = s.dec := rfl
@[simp] theorem engineWrite_mem (s : State) (a : Addr) (v : Byte) : (engineWrite s a v).mem = s.mem.write a.toNat v := rfl
@[simp] theorem engineWrite_posted (s : State) (a : Addr) (v : Byte) : (engineWrite s a v).posted = s.posted := rfl
@[simp] theorem engineWrite_races (s : State) (a : Addr) (v : Byte) : (engineWrite s a v).races = s.races.map (noteEngineWrite a v) := rfl
@[simp] theorem engineWrite_views (s : State) (a : Addr) (v : Byte) : (engineWrite s a v).views = s.views := rfl
@[simp] theorem engineWrite_lastRead (s : State) (a : Addr) (v : Byte) : (engineWrite s a v).lastRead = s.lastRead := rfl
@[simp] theorem engineWrite_script (s : State) (a : Addr) (v : Byte) : (engineWrite s a v).script = s.script := rfl
@[simp] theorem engineWrite_choices (s : State) (a : Addr) (v : Byte) : (engineWrite s a v).choices = s.choices := rfl

/-! ### hostStore -/

@[simp] theorem hostStore_platform (s : State) (a : Addr) (v : Byte) : (hostStore s a v).platform = s.platform := rfl
@[simp] theorem hostStore_rst (s : State) (a : Addr) (v : Byte) : (hostStore s a v).rst = s.rst := rfl
@[simp] theorem hostStore_done (s : State) (a : Addr) (v : Byte) : (hostStore s a v).done = s.done := rfl
@[simp] theorem hostStore_cmdIgnored (s : State) (a : Addr) (v : Byte) : (hostStore s a v).cmdIgnored = s.cmdIgnored := rfl
@[simp] theorem hostStore_result (s : State) (a : Addr) (v : Byte) : (hostStore s a v).result = s.result := rfl
@[simp] theorem hostStore_truncMode (s : State) (a : Addr) (v : Byte) : (hostStore s a v).truncMode = s.truncMode := rfl
@[simp] theorem hostStore_textMode (s : State) (a : Addr) (v : Byte) : (hostStore s a v).textMode = s.textMode := rfl
@[simp] theorem hostStore_irqEn (s : State) (a : Addr) (v : Byte) : (hostStore s a v).irqEn = s.irqEn := rfl
@[simp] theorem hostStore_width (s : State) (a : Addr) (v : Byte) : (hostStore s a v).width = s.width := rfl
@[simp] theorem hostStore_height (s : State) (a : Addr) (v : Byte) : (hostStore s a v).height = s.height := rfl
@[simp] theorem hostStore_gridBase (s : State) (a : Addr) (v : Byte) : (hostStore s a v).gridBase = s.gridBase := rfl
@[simp] theorem hostStore_payloadBase (s : State) (a : Addr) (v : Byte) : (hostStore s a v).payloadBase = s.payloadBase := rfl
@[simp] theorem hostStore_payloadLen (s : State) (a : Addr) (v : Byte) : (hostStore s a v).payloadLen = s.payloadLen := rfl
@[simp] theorem hostStore_decodedLen (s : State) (a : Addr) (v : Byte) : (hostStore s a v).decodedLen = s.decodedLen := rfl
@[simp] theorem hostStore_phase (s : State) (a : Addr) (v : Byte) : (hostStore s a v).phase = s.phase := rfl
@[simp] theorem hostStore_sN (s : State) (a : Addr) (v : Byte) : (hostStore s a v).sN = s.sN := rfl
@[simp] theorem hostStore_sGB (s : State) (a : Addr) (v : Byte) : (hostStore s a v).sGB = s.sGB := rfl
@[simp] theorem hostStore_sPB (s : State) (a : Addr) (v : Byte) : (hostStore s a v).sPB = s.sPB := rfl
@[simp] theorem hostStore_sL (s : State) (a : Addr) (v : Byte) : (hostStore s a v).sL = s.sL := rfl
@[simp] theorem hostStore_sTM (s : State) (a : Addr) (v : Byte) : (hostStore s a v).sTM = s.sTM := rfl
@[simp] theorem hostStore_sXM (s : State) (a : Addr) (v : Byte) : (hostStore s a v).sXM = s.sXM := rfl
@[simp] theorem hostStore_k (s : State) (a : Addr) (v : Byte) : (hostStore s a v).k = s.k := rfl
@[simp] theorem hostStore_j (s : State) (a : Addr) (v : Byte) : (hostStore s a v).j = s.j := rfl
@[simp] theorem hostStore_cur (s : State) (a : Addr) (v : Byte) : (hostStore s a v).cur = s.cur := rfl
@[simp] theorem hostStore_hdr (s : State) (a : Addr) (v : Byte) : (hostStore s a v).hdr = s.hdr := rfl
@[simp] theorem hostStore_lenacc (s : State) (a : Addr) (v : Byte) : (hostStore s a v).lenacc = s.lenacc := rfl
@[simp] theorem hostStore_acc (s : State) (a : Addr) (v : Byte) : (hostStore s a v).acc = s.acc := rfl
@[simp] theorem hostStore_dec (s : State) (a : Addr) (v : Byte) : (hostStore s a v).dec = s.dec := rfl
@[simp] theorem hostStore_mem (s : State) (a : Addr) (v : Byte) : (hostStore s a v).mem = s.mem.write a.toNat v := rfl
@[simp] theorem hostStore_posted (s : State) (a : Addr) (v : Byte) : (hostStore s a v).posted = s.posted := rfl
@[simp] theorem hostStore_views (s : State) (a : Addr) (v : Byte) : (hostStore s a v).views = s.views.map (fun m => m.write a.toNat v) := rfl
@[simp] theorem hostStore_lastRead (s : State) (a : Addr) (v : Byte) : (hostStore s a v).lastRead = s.lastRead := rfl
@[simp] theorem hostStore_script (s : State) (a : Addr) (v : Byte) : (hostStore s a v).script = s.script := rfl
@[simp] theorem hostStore_choices (s : State) (a : Addr) (v : Byte) : (hostStore s a v).choices = s.choices := rfl

/-! ### drainAll -/

@[simp] theorem drainAll_platform (s : State) : (drainAll s).platform = s.platform := rfl
@[simp] theorem drainAll_rst (s : State) : (drainAll s).rst = s.rst := rfl
@[simp] theorem drainAll_done (s : State) : (drainAll s).done = s.done := rfl
@[simp] theorem drainAll_cmdIgnored (s : State) : (drainAll s).cmdIgnored = s.cmdIgnored := rfl
@[simp] theorem drainAll_result (s : State) : (drainAll s).result = s.result := rfl
@[simp] theorem drainAll_truncMode (s : State) : (drainAll s).truncMode = s.truncMode := rfl
@[simp] theorem drainAll_textMode (s : State) : (drainAll s).textMode = s.textMode := rfl
@[simp] theorem drainAll_irqEn (s : State) : (drainAll s).irqEn = s.irqEn := rfl
@[simp] theorem drainAll_width (s : State) : (drainAll s).width = s.width := rfl
@[simp] theorem drainAll_height (s : State) : (drainAll s).height = s.height := rfl
@[simp] theorem drainAll_gridBase (s : State) : (drainAll s).gridBase = s.gridBase := rfl
@[simp] theorem drainAll_payloadBase (s : State) : (drainAll s).payloadBase = s.payloadBase := rfl
@[simp] theorem drainAll_payloadLen (s : State) : (drainAll s).payloadLen = s.payloadLen := rfl
@[simp] theorem drainAll_decodedLen (s : State) : (drainAll s).decodedLen = s.decodedLen := rfl
@[simp] theorem drainAll_phase (s : State) : (drainAll s).phase = s.phase := rfl
@[simp] theorem drainAll_sN (s : State) : (drainAll s).sN = s.sN := rfl
@[simp] theorem drainAll_sGB (s : State) : (drainAll s).sGB = s.sGB := rfl
@[simp] theorem drainAll_sPB (s : State) : (drainAll s).sPB = s.sPB := rfl
@[simp] theorem drainAll_sL (s : State) : (drainAll s).sL = s.sL := rfl
@[simp] theorem drainAll_sTM (s : State) : (drainAll s).sTM = s.sTM := rfl
@[simp] theorem drainAll_sXM (s : State) : (drainAll s).sXM = s.sXM := rfl
@[simp] theorem drainAll_k (s : State) : (drainAll s).k = s.k := rfl
@[simp] theorem drainAll_j (s : State) : (drainAll s).j = s.j := rfl
@[simp] theorem drainAll_cur (s : State) : (drainAll s).cur = s.cur := rfl
@[simp] theorem drainAll_hdr (s : State) : (drainAll s).hdr = s.hdr := rfl
@[simp] theorem drainAll_lenacc (s : State) : (drainAll s).lenacc = s.lenacc := rfl
@[simp] theorem drainAll_acc (s : State) : (drainAll s).acc = s.acc := rfl
@[simp] theorem drainAll_dec (s : State) : (drainAll s).dec = s.dec := rfl
@[simp] theorem drainAll_posted (s : State) : (drainAll s).posted = [] := rfl
@[simp] theorem drainAll_lastRead (s : State) : (drainAll s).lastRead = s.lastRead := rfl
@[simp] theorem drainAll_script (s : State) : (drainAll s).script = s.script := rfl
@[simp] theorem drainAll_choices (s : State) : (drainAll s).choices = s.choices := rfl

/-! ### hostSees -/

@[simp] theorem hostSees_platform (s : State) : (hostSees s).platform = s.platform := rfl
@[simp] theorem hostSees_rst (s : State) : (hostSees s).rst = s.rst := rfl
@[simp] theorem hostSees_done (s : State) : (hostSees s).done = s.done := rfl
@[simp] theorem hostSees_cmdIgnored (s : State) : (hostSees s).cmdIgnored = s.cmdIgnored := rfl
@[simp] theorem hostSees_result (s : State) : (hostSees s).result = s.result := rfl
@[simp] theorem hostSees_truncMode (s : State) : (hostSees s).truncMode = s.truncMode := rfl
@[simp] theorem hostSees_textMode (s : State) : (hostSees s).textMode = s.textMode := rfl
@[simp] theorem hostSees_irqEn (s : State) : (hostSees s).irqEn = s.irqEn := rfl
@[simp] theorem hostSees_width (s : State) : (hostSees s).width = s.width := rfl
@[simp] theorem hostSees_height (s : State) : (hostSees s).height = s.height := rfl
@[simp] theorem hostSees_gridBase (s : State) : (hostSees s).gridBase = s.gridBase := rfl
@[simp] theorem hostSees_payloadBase (s : State) : (hostSees s).payloadBase = s.payloadBase := rfl
@[simp] theorem hostSees_payloadLen (s : State) : (hostSees s).payloadLen = s.payloadLen := rfl
@[simp] theorem hostSees_decodedLen (s : State) : (hostSees s).decodedLen = s.decodedLen := rfl
@[simp] theorem hostSees_phase (s : State) : (hostSees s).phase = s.phase := rfl
@[simp] theorem hostSees_sN (s : State) : (hostSees s).sN = s.sN := rfl
@[simp] theorem hostSees_sGB (s : State) : (hostSees s).sGB = s.sGB := rfl
@[simp] theorem hostSees_sPB (s : State) : (hostSees s).sPB = s.sPB := rfl
@[simp] theorem hostSees_sL (s : State) : (hostSees s).sL = s.sL := rfl
@[simp] theorem hostSees_sTM (s : State) : (hostSees s).sTM = s.sTM := rfl
@[simp] theorem hostSees_sXM (s : State) : (hostSees s).sXM = s.sXM := rfl
@[simp] theorem hostSees_k (s : State) : (hostSees s).k = s.k := rfl
@[simp] theorem hostSees_j (s : State) : (hostSees s).j = s.j := rfl
@[simp] theorem hostSees_cur (s : State) : (hostSees s).cur = s.cur := rfl
@[simp] theorem hostSees_hdr (s : State) : (hostSees s).hdr = s.hdr := rfl
@[simp] theorem hostSees_lenacc (s : State) : (hostSees s).lenacc = s.lenacc := rfl
@[simp] theorem hostSees_acc (s : State) : (hostSees s).acc = s.acc := rfl
@[simp] theorem hostSees_dec (s : State) : (hostSees s).dec = s.dec := rfl
@[simp] theorem hostSees_mem (s : State) : (hostSees s).mem = s.mem := rfl
@[simp] theorem hostSees_posted (s : State) : (hostSees s).posted = s.posted := rfl
@[simp] theorem hostSees_races (s : State) : (hostSees s).races = s.races := rfl
@[simp] theorem hostSees_views (s : State) : (hostSees s).views = [] := rfl
@[simp] theorem hostSees_lastRead (s : State) : (hostSees s).lastRead = s.lastRead := rfl
@[simp] theorem hostSees_script (s : State) : (hostSees s).script = s.script := rfl
@[simp] theorem hostSees_choices (s : State) : (hostSees s).choices = s.choices := rfl

/-! ### hostSeesIrq -/

@[simp] theorem hostSeesIrq_platform (s : State) : (hostSeesIrq s).platform = s.platform := rfl
@[simp] theorem hostSeesIrq_rst (s : State) : (hostSeesIrq s).rst = s.rst := rfl
@[simp] theorem hostSeesIrq_done (s : State) : (hostSeesIrq s).done = s.done := rfl
@[simp] theorem hostSeesIrq_cmdIgnored (s : State) : (hostSeesIrq s).cmdIgnored = s.cmdIgnored := rfl
@[simp] theorem hostSeesIrq_result (s : State) : (hostSeesIrq s).result = s.result := rfl
@[simp] theorem hostSeesIrq_truncMode (s : State) : (hostSeesIrq s).truncMode = s.truncMode := rfl
@[simp] theorem hostSeesIrq_textMode (s : State) : (hostSeesIrq s).textMode = s.textMode := rfl
@[simp] theorem hostSeesIrq_irqEn (s : State) : (hostSeesIrq s).irqEn = s.irqEn := rfl
@[simp] theorem hostSeesIrq_width (s : State) : (hostSeesIrq s).width = s.width := rfl
@[simp] theorem hostSeesIrq_height (s : State) : (hostSeesIrq s).height = s.height := rfl
@[simp] theorem hostSeesIrq_gridBase (s : State) : (hostSeesIrq s).gridBase = s.gridBase := rfl
@[simp] theorem hostSeesIrq_payloadBase (s : State) : (hostSeesIrq s).payloadBase = s.payloadBase := rfl
@[simp] theorem hostSeesIrq_payloadLen (s : State) : (hostSeesIrq s).payloadLen = s.payloadLen := rfl
@[simp] theorem hostSeesIrq_decodedLen (s : State) : (hostSeesIrq s).decodedLen = s.decodedLen := rfl
@[simp] theorem hostSeesIrq_phase (s : State) : (hostSeesIrq s).phase = s.phase := rfl
@[simp] theorem hostSeesIrq_sN (s : State) : (hostSeesIrq s).sN = s.sN := rfl
@[simp] theorem hostSeesIrq_sGB (s : State) : (hostSeesIrq s).sGB = s.sGB := rfl
@[simp] theorem hostSeesIrq_sPB (s : State) : (hostSeesIrq s).sPB = s.sPB := rfl
@[simp] theorem hostSeesIrq_sL (s : State) : (hostSeesIrq s).sL = s.sL := rfl
@[simp] theorem hostSeesIrq_sTM (s : State) : (hostSeesIrq s).sTM = s.sTM := rfl
@[simp] theorem hostSeesIrq_sXM (s : State) : (hostSeesIrq s).sXM = s.sXM := rfl
@[simp] theorem hostSeesIrq_k (s : State) : (hostSeesIrq s).k = s.k := rfl
@[simp] theorem hostSeesIrq_j (s : State) : (hostSeesIrq s).j = s.j := rfl
@[simp] theorem hostSeesIrq_cur (s : State) : (hostSeesIrq s).cur = s.cur := rfl
@[simp] theorem hostSeesIrq_hdr (s : State) : (hostSeesIrq s).hdr = s.hdr := rfl
@[simp] theorem hostSeesIrq_lenacc (s : State) : (hostSeesIrq s).lenacc = s.lenacc := rfl
@[simp] theorem hostSeesIrq_acc (s : State) : (hostSeesIrq s).acc = s.acc := rfl
@[simp] theorem hostSeesIrq_dec (s : State) : (hostSeesIrq s).dec = s.dec := rfl
@[simp] theorem hostSeesIrq_mem (s : State) : (hostSeesIrq s).mem = s.mem := rfl
@[simp] theorem hostSeesIrq_posted (s : State) : (hostSeesIrq s).posted = s.posted := rfl
@[simp] theorem hostSeesIrq_races (s : State) : (hostSeesIrq s).races = s.races := rfl
@[simp] theorem hostSeesIrq_views (s : State) : (hostSeesIrq s).views = if s.irq then [] else s.views := rfl
@[simp] theorem hostSeesIrq_lastRead (s : State) : (hostSeesIrq s).lastRead = s.lastRead := rfl
@[simp] theorem hostSeesIrq_script (s : State) : (hostSeesIrq s).script = s.script := rfl
@[simp] theorem hostSeesIrq_choices (s : State) : (hostSeesIrq s).choices = s.choices := rfl

/-! ### settle -/

@[simp] theorem settle_platform (s : State) : (settle s).platform = s.platform := rfl
@[simp] theorem settle_rst (s : State) : (settle s).rst = s.rst := rfl
@[simp] theorem settle_done (s : State) : (settle s).done = s.done := rfl
@[simp] theorem settle_cmdIgnored (s : State) : (settle s).cmdIgnored = s.cmdIgnored := rfl
@[simp] theorem settle_result (s : State) : (settle s).result = s.result := rfl
@[simp] theorem settle_truncMode (s : State) : (settle s).truncMode = s.truncMode := rfl
@[simp] theorem settle_textMode (s : State) : (settle s).textMode = s.textMode := rfl
@[simp] theorem settle_irqEn (s : State) : (settle s).irqEn = s.irqEn := rfl
@[simp] theorem settle_width (s : State) : (settle s).width = s.width := rfl
@[simp] theorem settle_height (s : State) : (settle s).height = s.height := rfl
@[simp] theorem settle_gridBase (s : State) : (settle s).gridBase = s.gridBase := rfl
@[simp] theorem settle_payloadBase (s : State) : (settle s).payloadBase = s.payloadBase := rfl
@[simp] theorem settle_payloadLen (s : State) : (settle s).payloadLen = s.payloadLen := rfl
@[simp] theorem settle_decodedLen (s : State) : (settle s).decodedLen = s.decodedLen := rfl
@[simp] theorem settle_phase (s : State) : (settle s).phase = s.phase := rfl
@[simp] theorem settle_sN (s : State) : (settle s).sN = s.sN := rfl
@[simp] theorem settle_sGB (s : State) : (settle s).sGB = s.sGB := rfl
@[simp] theorem settle_sPB (s : State) : (settle s).sPB = s.sPB := rfl
@[simp] theorem settle_sL (s : State) : (settle s).sL = s.sL := rfl
@[simp] theorem settle_sTM (s : State) : (settle s).sTM = s.sTM := rfl
@[simp] theorem settle_sXM (s : State) : (settle s).sXM = s.sXM := rfl
@[simp] theorem settle_k (s : State) : (settle s).k = s.k := rfl
@[simp] theorem settle_j (s : State) : (settle s).j = s.j := rfl
@[simp] theorem settle_cur (s : State) : (settle s).cur = s.cur := rfl
@[simp] theorem settle_hdr (s : State) : (settle s).hdr = s.hdr := rfl
@[simp] theorem settle_lenacc (s : State) : (settle s).lenacc = s.lenacc := rfl
@[simp] theorem settle_acc (s : State) : (settle s).acc = s.acc := rfl
@[simp] theorem settle_dec (s : State) : (settle s).dec = s.dec := rfl
@[simp] theorem settle_posted (s : State) : (settle s).posted = s.posted := rfl
@[simp] theorem settle_races (s : State) : (settle s).races = [] := rfl
@[simp] theorem settle_views (s : State) : (settle s).views = s.views := rfl
@[simp] theorem settle_lastRead (s : State) : (settle s).lastRead = s.lastRead := rfl
@[simp] theorem settle_script (s : State) : (settle s).script = s.script := rfl

/-! ### finish -/

@[simp] theorem finish_platform (r : Result) (s : State) : (finish r s).platform = s.platform := rfl
@[simp] theorem finish_rst (r : Result) (s : State) : (finish r s).rst = s.rst := rfl
@[simp] theorem finish_done (r : Result) (s : State) : (finish r s).done = true := rfl
@[simp] theorem finish_cmdIgnored (r : Result) (s : State) : (finish r s).cmdIgnored = s.cmdIgnored := rfl
@[simp] theorem finish_result (r : Result) (s : State) : (finish r s).result = r := rfl
@[simp] theorem finish_truncMode (r : Result) (s : State) : (finish r s).truncMode = s.truncMode := rfl
@[simp] theorem finish_textMode (r : Result) (s : State) : (finish r s).textMode = s.textMode := rfl
@[simp] theorem finish_irqEn (r : Result) (s : State) : (finish r s).irqEn = s.irqEn := rfl
@[simp] theorem finish_width (r : Result) (s : State) : (finish r s).width = s.width := rfl
@[simp] theorem finish_height (r : Result) (s : State) : (finish r s).height = s.height := rfl
@[simp] theorem finish_gridBase (r : Result) (s : State) : (finish r s).gridBase = s.gridBase := rfl
@[simp] theorem finish_payloadBase (r : Result) (s : State) : (finish r s).payloadBase = s.payloadBase := rfl
@[simp] theorem finish_payloadLen (r : Result) (s : State) : (finish r s).payloadLen = s.payloadLen := rfl
@[simp] theorem finish_decodedLen (r : Result) (s : State) : (finish r s).decodedLen = s.decodedLen := rfl
@[simp] theorem finish_phase (r : Result) (s : State) : (finish r s).phase = .idle := rfl
@[simp] theorem finish_sN (r : Result) (s : State) : (finish r s).sN = s.sN := rfl
@[simp] theorem finish_sGB (r : Result) (s : State) : (finish r s).sGB = s.sGB := rfl
@[simp] theorem finish_sPB (r : Result) (s : State) : (finish r s).sPB = s.sPB := rfl
@[simp] theorem finish_sL (r : Result) (s : State) : (finish r s).sL = s.sL := rfl
@[simp] theorem finish_sTM (r : Result) (s : State) : (finish r s).sTM = s.sTM := rfl
@[simp] theorem finish_sXM (r : Result) (s : State) : (finish r s).sXM = s.sXM := rfl
@[simp] theorem finish_k (r : Result) (s : State) : (finish r s).k = s.k := rfl
@[simp] theorem finish_j (r : Result) (s : State) : (finish r s).j = s.j := rfl
@[simp] theorem finish_cur (r : Result) (s : State) : (finish r s).cur = s.cur := rfl
@[simp] theorem finish_hdr (r : Result) (s : State) : (finish r s).hdr = s.hdr := rfl
@[simp] theorem finish_lenacc (r : Result) (s : State) : (finish r s).lenacc = s.lenacc := rfl
@[simp] theorem finish_acc (r : Result) (s : State) : (finish r s).acc = s.acc := rfl
@[simp] theorem finish_dec (r : Result) (s : State) : (finish r s).dec = s.dec := rfl
@[simp] theorem finish_mem (r : Result) (s : State) : (finish r s).mem = (settle s).mem := rfl
@[simp] theorem finish_posted (r : Result) (s : State) : (finish r s).posted = s.posted := rfl
@[simp] theorem finish_races (r : Result) (s : State) : (finish r s).races = [] := rfl
@[simp] theorem finish_lastRead (r : Result) (s : State) : (finish r s).lastRead = s.lastRead := rfl
@[simp] theorem finish_script (r : Result) (s : State) : (finish r s).script = s.script := rfl
@[simp] theorem finish_choices (r : Result) (s : State) : (finish r s).choices = (settle s).choices := rfl

/-! ### startEmbed -/

@[simp] theorem startEmbed_platform (s : State) : (startEmbed s).platform = s.platform := rfl
@[simp] theorem startEmbed_rst (s : State) : (startEmbed s).rst = s.rst := rfl
@[simp] theorem startEmbed_done (s : State) : (startEmbed s).done = false := rfl
@[simp] theorem startEmbed_cmdIgnored (s : State) : (startEmbed s).cmdIgnored = s.cmdIgnored := rfl
@[simp] theorem startEmbed_result (s : State) : (startEmbed s).result = .ok := rfl
@[simp] theorem startEmbed_truncMode (s : State) : (startEmbed s).truncMode = s.truncMode := rfl
@[simp] theorem startEmbed_textMode (s : State) : (startEmbed s).textMode = s.textMode := rfl
@[simp] theorem startEmbed_irqEn (s : State) : (startEmbed s).irqEn = s.irqEn := rfl
@[simp] theorem startEmbed_width (s : State) : (startEmbed s).width = s.width := rfl
@[simp] theorem startEmbed_height (s : State) : (startEmbed s).height = s.height := rfl
@[simp] theorem startEmbed_gridBase (s : State) : (startEmbed s).gridBase = s.gridBase := rfl
@[simp] theorem startEmbed_payloadBase (s : State) : (startEmbed s).payloadBase = s.payloadBase := rfl
@[simp] theorem startEmbed_payloadLen (s : State) : (startEmbed s).payloadLen = s.payloadLen := rfl
@[simp] theorem startEmbed_decodedLen (s : State) : (startEmbed s).decodedLen = s.decodedLen := rfl
@[simp] theorem startEmbed_phase (s : State) : (startEmbed s).phase = .eLen := rfl
@[simp] theorem startEmbed_sN (s : State) : (startEmbed s).sN = pixelCount s := rfl
@[simp] theorem startEmbed_sGB (s : State) : (startEmbed s).sGB = s.gridBase := rfl
@[simp] theorem startEmbed_sPB (s : State) : (startEmbed s).sPB = s.payloadBase := rfl
@[simp] theorem startEmbed_sL (s : State) : (startEmbed s).sL = s.payloadLen := rfl
@[simp] theorem startEmbed_sTM (s : State) : (startEmbed s).sTM = s.sTM := rfl
@[simp] theorem startEmbed_sXM (s : State) : (startEmbed s).sXM = s.sXM := rfl
@[simp] theorem startEmbed_k (s : State) : (startEmbed s).k = 0 := rfl
@[simp] theorem startEmbed_j (s : State) : (startEmbed s).j = 0 := rfl
@[simp] theorem startEmbed_cur (s : State) : (startEmbed s).cur = s.cur := rfl
@[simp] theorem startEmbed_hdr (s : State) : (startEmbed s).hdr = s.hdr := rfl
@[simp] theorem startEmbed_lenacc (s : State) : (startEmbed s).lenacc = s.lenacc := rfl
@[simp] theorem startEmbed_acc (s : State) : (startEmbed s).acc = s.acc := rfl
@[simp] theorem startEmbed_dec (s : State) : (startEmbed s).dec = s.dec := rfl
@[simp] theorem startEmbed_mem (s : State) : (startEmbed s).mem = s.mem := rfl
@[simp] theorem startEmbed_posted (s : State) : (startEmbed s).posted = s.posted := rfl
@[simp] theorem startEmbed_races (s : State) : (startEmbed s).races = s.races := rfl
@[simp] theorem startEmbed_views (s : State) : (startEmbed s).views = s.views ++ [s.mem] := rfl
@[simp] theorem startEmbed_lastRead (s : State) : (startEmbed s).lastRead = s.lastRead := rfl
@[simp] theorem startEmbed_script (s : State) : (startEmbed s).script = s.script := rfl
@[simp] theorem startEmbed_choices (s : State) : (startEmbed s).choices = s.choices := rfl

/-! ### startExtract -/

@[simp] theorem startExtract_platform (s : State) : (startExtract s).platform = s.platform := rfl
@[simp] theorem startExtract_rst (s : State) : (startExtract s).rst = s.rst := rfl
@[simp] theorem startExtract_done (s : State) : (startExtract s).done = false := rfl
@[simp] theorem startExtract_cmdIgnored (s : State) : (startExtract s).cmdIgnored = s.cmdIgnored := rfl
@[simp] theorem startExtract_result (s : State) : (startExtract s).result = .ok := rfl
@[simp] theorem startExtract_truncMode (s : State) : (startExtract s).truncMode = s.truncMode := rfl
@[simp] theorem startExtract_textMode (s : State) : (startExtract s).textMode = s.textMode := rfl
@[simp] theorem startExtract_irqEn (s : State) : (startExtract s).irqEn = s.irqEn := rfl
@[simp] theorem startExtract_width (s : State) : (startExtract s).width = s.width := rfl
@[simp] theorem startExtract_height (s : State) : (startExtract s).height = s.height := rfl
@[simp] theorem startExtract_gridBase (s : State) : (startExtract s).gridBase = s.gridBase := rfl
@[simp] theorem startExtract_payloadBase (s : State) : (startExtract s).payloadBase = s.payloadBase := rfl
@[simp] theorem startExtract_payloadLen (s : State) : (startExtract s).payloadLen = s.payloadLen := rfl
@[simp] theorem startExtract_decodedLen (s : State) : (startExtract s).decodedLen = 0 := rfl
@[simp] theorem startExtract_phase (s : State) : (startExtract s).phase = .xBits := rfl
@[simp] theorem startExtract_sN (s : State) : (startExtract s).sN = pixelCount s := rfl
@[simp] theorem startExtract_sGB (s : State) : (startExtract s).sGB = s.gridBase := rfl
@[simp] theorem startExtract_sPB (s : State) : (startExtract s).sPB = s.payloadBase := rfl
@[simp] theorem startExtract_sL (s : State) : (startExtract s).sL = s.sL := rfl
@[simp] theorem startExtract_sTM (s : State) : (startExtract s).sTM = s.truncMode := rfl
@[simp] theorem startExtract_sXM (s : State) : (startExtract s).sXM = s.textMode := rfl
@[simp] theorem startExtract_k (s : State) : (startExtract s).k = 0 := rfl
@[simp] theorem startExtract_j (s : State) : (startExtract s).j = 0 := rfl
@[simp] theorem startExtract_cur (s : State) : (startExtract s).cur = s.cur := rfl
@[simp] theorem startExtract_hdr (s : State) : (startExtract s).hdr = s.hdr := rfl
@[simp] theorem startExtract_lenacc (s : State) : (startExtract s).lenacc = s.lenacc := rfl
@[simp] theorem startExtract_acc (s : State) : (startExtract s).acc = s.acc := rfl
@[simp] theorem startExtract_dec (s : State) : (startExtract s).dec = [] := rfl
@[simp] theorem startExtract_mem (s : State) : (startExtract s).mem = s.mem := rfl
@[simp] theorem startExtract_posted (s : State) : (startExtract s).posted = s.posted := rfl
@[simp] theorem startExtract_races (s : State) : (startExtract s).races = s.races := rfl
@[simp] theorem startExtract_views (s : State) : (startExtract s).views = s.views ++ [s.mem] := rfl
@[simp] theorem startExtract_lastRead (s : State) : (startExtract s).lastRead = s.lastRead := rfl
@[simp] theorem startExtract_script (s : State) : (startExtract s).script = s.script := rfl
@[simp] theorem startExtract_choices (s : State) : (startExtract s).choices = s.choices := rfl

/-! ### freeByte -/

@[simp] theorem freeByte_state_platform (s : State) : (freeByte s).2.platform = s.platform := rfl
@[simp] theorem freeByte_state_rst (s : State) : (freeByte s).2.rst = s.rst := rfl
@[simp] theorem freeByte_state_done (s : State) : (freeByte s).2.done = s.done := rfl
@[simp] theorem freeByte_state_cmdIgnored (s : State) : (freeByte s).2.cmdIgnored = s.cmdIgnored := rfl
@[simp] theorem freeByte_state_result (s : State) : (freeByte s).2.result = s.result := rfl
@[simp] theorem freeByte_state_truncMode (s : State) : (freeByte s).2.truncMode = s.truncMode := rfl
@[simp] theorem freeByte_state_textMode (s : State) : (freeByte s).2.textMode = s.textMode := rfl
@[simp] theorem freeByte_state_irqEn (s : State) : (freeByte s).2.irqEn = s.irqEn := rfl
@[simp] theorem freeByte_state_width (s : State) : (freeByte s).2.width = s.width := rfl
@[simp] theorem freeByte_state_height (s : State) : (freeByte s).2.height = s.height := rfl
@[simp] theorem freeByte_state_gridBase (s : State) : (freeByte s).2.gridBase = s.gridBase := rfl
@[simp] theorem freeByte_state_payloadBase (s : State) : (freeByte s).2.payloadBase = s.payloadBase := rfl
@[simp] theorem freeByte_state_payloadLen (s : State) : (freeByte s).2.payloadLen = s.payloadLen := rfl
@[simp] theorem freeByte_state_decodedLen (s : State) : (freeByte s).2.decodedLen = s.decodedLen := rfl
@[simp] theorem freeByte_state_phase (s : State) : (freeByte s).2.phase = s.phase := rfl
@[simp] theorem freeByte_state_sN (s : State) : (freeByte s).2.sN = s.sN := rfl
@[simp] theorem freeByte_state_sGB (s : State) : (freeByte s).2.sGB = s.sGB := rfl
@[simp] theorem freeByte_state_sPB (s : State) : (freeByte s).2.sPB = s.sPB := rfl
@[simp] theorem freeByte_state_sL (s : State) : (freeByte s).2.sL = s.sL := rfl
@[simp] theorem freeByte_state_sTM (s : State) : (freeByte s).2.sTM = s.sTM := rfl
@[simp] theorem freeByte_state_sXM (s : State) : (freeByte s).2.sXM = s.sXM := rfl
@[simp] theorem freeByte_state_k (s : State) : (freeByte s).2.k = s.k := rfl
@[simp] theorem freeByte_state_j (s : State) : (freeByte s).2.j = s.j := rfl
@[simp] theorem freeByte_state_cur (s : State) : (freeByte s).2.cur = s.cur := rfl
@[simp] theorem freeByte_state_hdr (s : State) : (freeByte s).2.hdr = s.hdr := rfl
@[simp] theorem freeByte_state_lenacc (s : State) : (freeByte s).2.lenacc = s.lenacc := rfl
@[simp] theorem freeByte_state_acc (s : State) : (freeByte s).2.acc = s.acc := rfl
@[simp] theorem freeByte_state_dec (s : State) : (freeByte s).2.dec = s.dec := rfl
@[simp] theorem freeByte_state_mem (s : State) : (freeByte s).2.mem = s.mem := rfl
@[simp] theorem freeByte_state_posted (s : State) : (freeByte s).2.posted = s.posted := rfl
@[simp] theorem freeByte_state_races (s : State) : (freeByte s).2.races = s.races := rfl
@[simp] theorem freeByte_state_views (s : State) : (freeByte s).2.views = s.views := rfl
@[simp] theorem freeByte_state_lastRead (s : State) : (freeByte s).2.lastRead = s.lastRead := rfl
@[simp] theorem freeByte_state_script (s : State) : (freeByte s).2.script = s.script := rfl
@[simp] theorem freeByte_state_choices (s : State) : (freeByte s).2.choices = s.choices + 1 := rfl

/-! ### hostMemPost -/

@[simp] theorem hostMemPost_platform (a : Addr) (v : Byte) (s : State) : (hostMemPost a v s).platform = s.platform := rfl
@[simp] theorem hostMemPost_rst (a : Addr) (v : Byte) (s : State) : (hostMemPost a v s).rst = s.rst := rfl
@[simp] theorem hostMemPost_done (a : Addr) (v : Byte) (s : State) : (hostMemPost a v s).done = s.done := rfl
@[simp] theorem hostMemPost_cmdIgnored (a : Addr) (v : Byte) (s : State) : (hostMemPost a v s).cmdIgnored = s.cmdIgnored := rfl
@[simp] theorem hostMemPost_result (a : Addr) (v : Byte) (s : State) : (hostMemPost a v s).result = s.result := rfl
@[simp] theorem hostMemPost_truncMode (a : Addr) (v : Byte) (s : State) : (hostMemPost a v s).truncMode = s.truncMode := rfl
@[simp] theorem hostMemPost_textMode (a : Addr) (v : Byte) (s : State) : (hostMemPost a v s).textMode = s.textMode := rfl
@[simp] theorem hostMemPost_irqEn (a : Addr) (v : Byte) (s : State) : (hostMemPost a v s).irqEn = s.irqEn := rfl
@[simp] theorem hostMemPost_width (a : Addr) (v : Byte) (s : State) : (hostMemPost a v s).width = s.width := rfl
@[simp] theorem hostMemPost_height (a : Addr) (v : Byte) (s : State) : (hostMemPost a v s).height = s.height := rfl
@[simp] theorem hostMemPost_gridBase (a : Addr) (v : Byte) (s : State) : (hostMemPost a v s).gridBase = s.gridBase := rfl
@[simp] theorem hostMemPost_payloadBase (a : Addr) (v : Byte) (s : State) : (hostMemPost a v s).payloadBase = s.payloadBase := rfl
@[simp] theorem hostMemPost_payloadLen (a : Addr) (v : Byte) (s : State) : (hostMemPost a v s).payloadLen = s.payloadLen := rfl
@[simp] theorem hostMemPost_decodedLen (a : Addr) (v : Byte) (s : State) : (hostMemPost a v s).decodedLen = s.decodedLen := rfl
@[simp] theorem hostMemPost_phase (a : Addr) (v : Byte) (s : State) : (hostMemPost a v s).phase = s.phase := rfl
@[simp] theorem hostMemPost_sN (a : Addr) (v : Byte) (s : State) : (hostMemPost a v s).sN = s.sN := rfl
@[simp] theorem hostMemPost_sGB (a : Addr) (v : Byte) (s : State) : (hostMemPost a v s).sGB = s.sGB := rfl
@[simp] theorem hostMemPost_sPB (a : Addr) (v : Byte) (s : State) : (hostMemPost a v s).sPB = s.sPB := rfl
@[simp] theorem hostMemPost_sL (a : Addr) (v : Byte) (s : State) : (hostMemPost a v s).sL = s.sL := rfl
@[simp] theorem hostMemPost_sTM (a : Addr) (v : Byte) (s : State) : (hostMemPost a v s).sTM = s.sTM := rfl
@[simp] theorem hostMemPost_sXM (a : Addr) (v : Byte) (s : State) : (hostMemPost a v s).sXM = s.sXM := rfl
@[simp] theorem hostMemPost_k (a : Addr) (v : Byte) (s : State) : (hostMemPost a v s).k = s.k := rfl
@[simp] theorem hostMemPost_j (a : Addr) (v : Byte) (s : State) : (hostMemPost a v s).j = s.j := rfl
@[simp] theorem hostMemPost_cur (a : Addr) (v : Byte) (s : State) : (hostMemPost a v s).cur = s.cur := rfl
@[simp] theorem hostMemPost_hdr (a : Addr) (v : Byte) (s : State) : (hostMemPost a v s).hdr = s.hdr := rfl
@[simp] theorem hostMemPost_lenacc (a : Addr) (v : Byte) (s : State) : (hostMemPost a v s).lenacc = s.lenacc := rfl
@[simp] theorem hostMemPost_acc (a : Addr) (v : Byte) (s : State) : (hostMemPost a v s).acc = s.acc := rfl
@[simp] theorem hostMemPost_dec (a : Addr) (v : Byte) (s : State) : (hostMemPost a v s).dec = s.dec := rfl
@[simp] theorem hostMemPost_mem (a : Addr) (v : Byte) (s : State) : (hostMemPost a v s).mem = s.mem := rfl
@[simp] theorem hostMemPost_posted (a : Addr) (v : Byte) (s : State) : (hostMemPost a v s).posted = s.posted ++ [(a, v)] := rfl
@[simp] theorem hostMemPost_races (a : Addr) (v : Byte) (s : State) : (hostMemPost a v s).races = s.races := rfl
@[simp] theorem hostMemPost_views (a : Addr) (v : Byte) (s : State) : (hostMemPost a v s).views = s.views := rfl
@[simp] theorem hostMemPost_lastRead (a : Addr) (v : Byte) (s : State) : (hostMemPost a v s).lastRead = s.lastRead := rfl
@[simp] theorem hostMemPost_script (a : Addr) (v : Byte) (s : State) : (hostMemPost a v s).script = s.script := rfl
@[simp] theorem hostMemPost_choices (a : Addr) (v : Byte) (s : State) : (hostMemPost a v s).choices = s.choices := rfl

end Sys2Proof.Machine
end

