-- ==== Sys2Proof/Laws/Ops.lean ====
section
/-! SUPPORT. One lemma per shared operation that says everything it can do; later proofs cite these instead of unfolding
the operations. -/

namespace Sys2Proof.Machine

open Sys2Proof

/-! ## Choices -/

/-- A choice with nothing to choose from is the value. -/
@[simp] theorem chosen_nil (s : State) (v : Byte) : chosen s v [] = v := by simp [chosen]

/-- A choice gives one of the values. -/
theorem chosen_mem (s : State) (v : Byte) (vs : List Byte) : chosen s v vs ∈ v :: vs := by
  unfold chosen
  split
  · exact List.mem_cons_self
  · have h : Config.pick s.choices % (vs.length + 1) < (v :: vs).length := by
      simpa using Nat.mod_lt _ (Nat.succ_pos _)
    rw [List.getD_eq_getElem _ _ h]
    exact List.getElem_mem h

@[simp] theorem choose_nil (s : State) (v : Byte) : choose s v [] = (v, s) := by simp [choose]

@[simp] theorem choose_value (s : State) (v : Byte) (vs : List Byte) : (choose s v vs).1 = chosen s v vs := rfl

/-! ## Accesses of the engine -/

@[simp] theorem racedVals_of_no_races {s : State} (h : s.races = []) (a : Addr) : racedVals s a = [] := by
  simp [racedVals, h]

@[simp] theorem postedVals_of_none_posted {s : State} (h : s.posted = []) (a : Addr) : postedVals s a = [] := by
  simp [postedVals, h]

/-- An engine read of a byte no other agent writes is the byte of memory (20_memory R75). -/
theorem engineRead_of_no_race {s : State} {a : Addr} (hr : racedVals s a = []) (hp : postedVals s a = []) :
    engineRead s a = (s.mem.read a.toNat, s) := by
  simp [engineRead, hr, hp]

/-- A byte without a race has no raced values. -/
theorem racedVals_of_no_race_at {s : State} {a : Addr} (h : ∀ r ∈ s.races, r.addr ≠ a) : racedVals s a = [] := by
  simp only [racedVals, List.flatMap_eq_nil_iff, List.mem_filter, beq_iff_eq]
  exact fun r hr => absurd hr.2 (h r hr.1)

/-- A byte without an outstanding host write has no posted values. -/
theorem postedVals_of_none_at {s : State} {a : Addr} (h : ∀ c ∈ s.posted, c.1 ≠ a) : postedVals s a = [] := by
  simp only [postedVals, List.map_eq_nil_iff, List.filter_eq_nil_iff, beq_iff_eq]
  exact h

/-- An engine write to a byte without a race writes memory and nothing else. -/
theorem engineWrite_of_no_race_at {s : State} {a : Addr} (h : ∀ r ∈ s.races, r.addr ≠ a) (v : Byte) :
    engineWrite s a v = { s with mem := s.mem.write a.toNat v } := by
  have hr : s.races.map (noteEngineWrite a v) = s.races :=
    List.map_congr_left (fun r hm => by simp [noteEngineWrite, h r hm]) |>.trans (List.map_id _)
  simp [engineWrite, hr]

/-- An engine read in a quiet state (20_memory R75). -/
theorem engineRead_quiet {s : State} (hr : s.races = []) (hp : s.posted = []) (a : Addr) :
    engineRead s a = (s.mem.read a.toNat, s) :=
  engineRead_of_no_race (racedVals_of_no_races hr a) (postedVals_of_none_posted hp a)

/-- An engine write in a state without races writes memory and nothing else. -/
theorem engineWrite_quiet {s : State} (hr : s.races = []) (a : Addr) (v : Byte) :
    engineWrite s a v = { s with mem := s.mem.write a.toNat v } := by
  cases s
  simp_all [engineWrite]

/-- An engine write keeps the memory in canonical form. -/
theorem engineWrite_mem_wf {s : State} (h : s.mem.wf = true) (a : Addr) (v : Byte) :
    (engineWrite s a v).mem.wf = true :=
  Memory.wf_write a v h

/-- An engine write does not move a race to another byte. -/
@[simp] theorem noteEngineWrite_addr (a : Addr) (v : Byte) (r : Race) : (noteEngineWrite a v r).addr = r.addr := by
  unfold noteEngineWrite
  split <;> rfl

/-- A host write does not move a race to another byte. -/
@[simp] theorem noteHostWrite_addr (a : Addr) (v : Byte) (r : Race) : (noteHostWrite a v r).addr = r.addr := by
  unfold noteHostWrite
  split <;> rfl

/-! ## Accesses of the host -/

/-- A host write keeps the memory in canonical form. -/
theorem hostStore_mem_wf {s : State} (h : s.mem.wf = true) (a : Addr) (v : Byte) : (hostStore s a v).mem.wf = true :=
  Memory.wf_write a v h

/-- A host write keeps the older memories in canonical form. -/
theorem hostStore_views_wf {s : State} (h : ∀ m ∈ s.views, Memory.wf m = true) (a : Addr) (v : Byte) :
    ∀ m ∈ (hostStore s a v).views, Memory.wf m = true := by
  intro m hm
  obtain ⟨n, hn, rfl⟩ := List.mem_map.1 hm
  exact Memory.wf_write a v (h n hn)

/-- A host write outside the running operation's footprint makes no race (70_reset_and_hazards R217). -/
theorem hostStore_races_of_outside {s : State} {a : Addr} (h : inFootprint s a = false) (v : Byte) :
    (hostStore s a v).races = s.races := by
  simp [hostStore, h]

/-- What completing the issued host writes does, from the writes themselves: any property of memory, older memories and
races that each host write keeps, all of them together keep. -/
theorem drainAll_induction {P : State → Prop} (s : State) (h0 : P s)
    (hstep : ∀ (t : State) (a : Addr) (v : Byte), P t → P (hostStore t a v))
    (hposted : ∀ t : State, P t → P { s with posted := [], mem := t.mem, views := t.views, races := t.races }) :
    P (drainAll s) := by
  have key : ∀ (l : List (Addr × Byte)) (t : State), P t → P (l.foldl (fun t c => hostStore t c.1 c.2) t) := by
    intro l
    induction l with
    | nil => exact fun t h => h
    | cons c l ih => exact fun t h => ih _ (hstep t c.1 c.2 h)
  exact hposted _ (key s.posted s h0)

/-- Completing the issued host writes keeps the memory in canonical form. -/
theorem drainAll_mem_wf {s : State} (h : s.mem.wf = true) : (drainAll s).mem.wf = true :=
  drainAll_induction (P := fun t => t.mem.wf = true) s h (fun _ a v ht => hostStore_mem_wf ht a v) fun _ ht => ht

/-- Completing the issued host writes leaves every byte none of them is for. -/
theorem drainAll_read_of_not_posted {s : State} {b : Addr} (h : ∀ c ∈ s.posted, c.1 ≠ b) :
    (drainAll s).mem.read b.toNat = s.mem.read b.toNat := by
  have key : ∀ (l : List (Addr × Byte)) (t : State), (∀ c ∈ l, c.1 ≠ b) →
      (l.foldl (fun t c => hostStore t c.1 c.2) t).mem.read b.toNat = t.mem.read b.toNat := by
    intro l
    induction l with
    | nil => exact fun _ _ => rfl
    | cons c l ih =>
      intro t hl
      rw [List.foldl_cons, ih _ fun d hd => hl d (List.mem_cons_of_mem _ hd)]
      exact Memory.read_write_ne _ _ fun e => hl c List.mem_cons_self (BitVec.eq_of_toNat_eq e.symm)
  exact key s.posted s h

/-- Nothing issued, nothing to complete. -/
theorem drainAll_of_none_posted {s : State} (h : s.posted = []) : drainAll s = s := by
  cases s
  simp_all [drainAll]

/-! ## The end of an operation -/

/-- Without races there is nothing to settle. -/
theorem settle_of_no_races {s : State} (h : s.races = []) : settle s = s := by
  cases s
  simp_all [settle]

/-- `Finish` where no other agent raced with the operation (60_exceptions R193). -/
theorem finish_of_no_races {s : State} (h : s.races = []) (r : Result) :
    finish r s = { s with result := r, done := true, phase := .idle, views := if s.irqEn then [] else s.views } := by
  simp [finish, settle_of_no_races h, hostSeesIrq, State.irq]

/-- After `Finish` the block is idle. -/
@[simp] theorem finish_busy (r : Result) (s : State) : (finish r s).busy = false := rfl

/-- `irq` at `Finish` is IRQ_EN (60_exceptions R196). -/
@[simp] theorem finish_irq (r : Result) (s : State) : (finish r s).irq = s.irqEn := by simp [State.irq]

@[simp] theorem finish_views (r : Result) (s : State) :
    (finish r s).views = if s.irqEn then [] else s.views := by
  simp [finish, hostSeesIrq, State.irq]

/-- Settling one race changes only its own byte, and keeps the canonical form. -/
theorem settleRace_spec (s : State) (r : Race) :
    (∀ b : Nat, b ≠ r.addr.toNat → (settleRace s r).mem.read b = s.mem.read b) ∧
    (s.mem.wf = true → (settleRace s r).mem.wf = true) := by
  unfold settleRace
  split
  · exact ⟨fun _ _ => rfl, id⟩
  · exact ⟨fun b hb => Memory.read_write_ne _ _ hb, fun h => Memory.wf_write _ _ h⟩

/-- Settling the races changes only raced bytes (70_reset_and_hazards R217), and keeps the canonical form. -/
theorem settle_spec (s : State) :
    (∀ b : Nat, (∀ r ∈ s.races, r.addr.toNat ≠ b) → (settle s).mem.read b = s.mem.read b) ∧
    (s.mem.wf = true → (settle s).mem.wf = true) := by
  have key : ∀ (l : List Race) (t : State),
      (∀ b : Nat, (∀ r ∈ l, r.addr.toNat ≠ b) → (l.foldl settleRace t).mem.read b = t.mem.read b) ∧
      (t.mem.wf = true → (l.foldl settleRace t).mem.wf = true) := by
    intro l
    induction l with
    | nil => exact fun t => ⟨fun _ _ => rfl, id⟩
    | cons r l ih =>
      intro t
      refine ⟨fun b hb => ?_, fun h => (ih _).2 ((settleRace_spec t r).2 h)⟩
      rw [List.foldl_cons, (ih _).1 b fun q hq => hb q (List.mem_cons_of_mem _ hq)]
      exact (settleRace_spec t r).1 b (Ne.symm (hb r List.mem_cons_self))
  exact key s.races s

/-! ## The platform -/

/-- A platform address selects the offset it is `REG_BASE` plus, and nothing else (10_state R21, 42_host_access R178). -/
theorem regOffset_eq_some_iff (s : State) (addr : Nat) (off : BitVec 6) :
    regOffset s addr = some off ↔ addr = busAddr s off := by
  have hlt := off.isLt
  unfold regOffset busAddr
  split
  · rw [Option.some.injEq, BitVec.toNat_eq, BitVec.toNat_ofNat]
    omega
  · simp only [reduceCtorEq, false_iff]
    omega

/-- A host write where memory is backed is performed. -/
theorem ifBacked_of_backed {s : State} {a : Addr} (h : backed s a = true) (write : State → State) :
    ifBacked a write s = write s := by simp [ifBacked, h]

/-- A host write where no memory is backed does nothing (20_memory R73; log entry 5). -/
theorem ifBacked_of_not_backed {s : State} {a : Addr} (h : backed s a = false) (write : State → State) :
    ifBacked a write s = s := by simp [ifBacked, h]

/-- A host read changes the read's data and the free value's counter, and nothing else. -/
theorem hostMemRead_frame (a : Addr) (s : State) :
    hostMemRead a s =
      { s with lastRead := (hostMemRead a s).lastRead, choices := (hostMemRead a s).choices } := by
  unfold hostMemRead
  cases backed s a
  · rfl
  · simp only [if_true]
    unfold hostLoad
    cases (postedVals s a).getLast? <;> rfl

/-- With no holes every address is backed. -/
theorem backed_of_no_holes {s : State} (h : s.platform.holes = []) (a : Addr) : backed s a = true := by
  simp [backed, h]

/-- With no holes every footprint is backed, and the engine is never stuck. -/
theorem engineStuck_of_no_holes {s : State} (h : s.platform.holes = []) : engineStuck s = false := by
  simp [engineStuck, backed_of_no_holes h]

end Sys2Proof.Machine
end

