-- ==== Sys2Proof/Laws/PerInstr.lean ====
section
/-! SUPPORT. Statements made once per instruction: the encoding of each decodes to it (spec/30_encoding.md R97). -/

namespace Sys2Proof.Laws.Encoding

open Sys2Proof

/-- The instruction's command word decodes to it, and is one of the legal command words. -/
def Statement (i : Instr) : Prop :=
  i.wellFormed = true ∧ decode (encode i) = .ok i ∧ legalCommand (encode i) = true

theorem nop : Statement .nop := by simp [Statement, Instr.wellFormed, decode, encode, legalCommand]

theorem embed : Statement .embed := by simp [Statement, Instr.wellFormed, decode, encode, legalCommand]

theorem extract : Statement .extract := by simp [Statement, Instr.wellFormed, decode, encode, legalCommand]

end Sys2Proof.Laws.Encoding
end

