-- ==== Sys2Proof/Laws/Step.lean ====
section
/-! SUPPORT. What a step can do, said once: a turn of the engine, a register write, a command. Whole-machine proofs start
from these instead of unfolding `step`. -/

namespace Sys2Proof.Machine

open Sys2Proof

/-- A turn of the engine is nothing, or the step of its phase outside reset, at backed addresses, in a busy block. -/
theorem engineTurn_cases (s : State) :
    engineTurn s = s ∨
      (s.rst = false ∧ engineStuck s = false ∧ s.phase ≠ .idle ∧ engineTurn s = engineStep s) := by
  unfold engineTurn
  cases hr : s.rst <;> cases hs : engineStuck s <;> simp
  by_cases hp : s.phase = .idle
  · left
    simp [engineStep, hp]
  · exact .inr hp

/-- A command always gives a next state: the same one, CMD_IGNORED set, or the start of an operation on an idle block
(42_host_access R169). -/
theorem command_cases (w : Word) (s : State) :
    (w = 0 ∧ command w s = .next s) ∨
    (w ≠ 0 ∧ (s.busy = true ∨ legalCommand w = false) ∧ command w s = .next (setCmdIgnored s)) ∨
    (w = 1 ∧ s.busy = false ∧ command w s = .next (startEmbed s)) ∨
    (w = 2 ∧ s.busy = false ∧ command w s = .next (startExtract s)) := by
  by_cases h0 : w = 0
  · subst h0
    exact .inl ⟨rfl, rfl⟩
  · refine .inr ?_
    by_cases h1 : w = 1
    · subst h1
      cases hb : s.busy
      · exact .inr (.inl ⟨rfl, rfl, by simp [command, decode, exec, execEmbed, hb]⟩)
      · exact .inl ⟨h0, .inl rfl, by simp [command, decode, exec, execEmbed, hb]⟩
    · by_cases h2 : w = 2
      · subst h2
        cases hb : s.busy
        · exact .inr (.inr ⟨rfl, rfl, by simp [command, decode, exec, execExtract, hb]⟩)
        · exact .inl ⟨h0, .inl rfl, by simp [command, decode, exec, execExtract, hb]⟩
      · exact .inl ⟨h0, .inr (by simp_all [legalCommand]), by simp_all [command, decode]⟩

/-- A register write always gives a next state (42_host_access R166, R168): the same one; or, outside reset, that of a
command, of a STATUS write, of a CONFIG write, or of one operand register. -/
theorem hostRegWrite_cases (off : BitVec 6) (size : AccessSize) (v : Word) (s : State) :
    hostRegWrite off size v s = .next s ∨
    (s.rst = false ∧ size = .word ∧
      ((off = 0x00#6 ∧ hostRegWrite off size v s = command v s) ∨
       (off = 0x04#6 ∧ hostRegWrite off size v s = .next (clearStatus v s)) ∨
       (off = 0x0C#6 ∧ hostRegWrite off size v s = .next (writeConfig v s)) ∨
       (off = 0x10#6 ∧ hostRegWrite off size v s = .next { s with width := v }) ∨
       (off = 0x14#6 ∧ hostRegWrite off size v s = .next { s with height := v }) ∨
       (off = 0x18#6 ∧ hostRegWrite off size v s = .next { s with gridBase := v }) ∨
       (off = 0x1C#6 ∧ hostRegWrite off size v s = .next { s with payloadBase := v }) ∨
       (off = 0x20#6 ∧ hostRegWrite off size v s = .next { s with payloadLen := v }))) := by
  cases hr : s.rst
  · cases hl : legalAccess off size
    · simp [hostRegWrite, hr, hl]
    · have hsize : size = .word := by
        simp only [legalAccess, Bool.and_eq_true, beq_iff_eq] at hl
        exact hl.1
      have hw : hostRegWrite off size v s = regWrite off v s := by simp [hostRegWrite, hr, hl]
      rw [hw]
      unfold regWrite
      split <;> simp_all [BitVec.toNat_eq]
  · left
    simp [hostRegWrite, hr]

end Sys2Proof.Machine
end

