-- ==== Sys2Proof/Tests/Slice0.lean ====
section
/-! SUPPORT. Tests against the worked values of spec/95_test_vectors.md and the encodings of spec/30_encoding.md, and for
every statement with hypotheses a witness: a concrete state and operands that meet them. -/

namespace Sys2Proof.Tests

open Sys2Proof Sys2Proof.Machine

/-! ## Small states -/

/-- The illustrative magic of 95_test_vectors section 0, all memory backed. -/
def testPlatform : Platform := { magic := 0x475453#24, regBase := 0x40000000, holes := [] }

/-- The block after reset on that platform. -/
def fresh : State := { State.reset with platform := testPlatform }

/-- An EMBED of one byte at 0x800 into the grid at 0x1000, in the given phase. -/
def embedding (p : Phase) (k : Nat) : State :=
  { fresh with phase := p, sN := 48, sGB := 0x1000#32, sPB := 0x800#32, sL := 1#32, j := 1, k := k }

/-- An EXTRACT of a grid of `n` pixels at 0x1000 to 0x3000, at stream bit `k`. -/
def extracting (n k : Nat) (tm : TruncMode) : State :=
  { fresh with phase := .xBits, sN := n, sGB := 0x1000#32, sPB := 0x3000#32, sTM := tm, k := k }

/-! ## Well-formedness and decoding -/

/-- 30_encoding R98: 0x00000003, the first reserved word. -/
theorem test_first_reserved_word_is_refused : legalCommand 0x00000003#32 = false := by decide

/-- 30_encoding R98: 0xFFFFFFFF, the last reserved word. -/
theorem test_last_reserved_word_is_refused : legalCommand 0xFFFFFFFF#32 = false := by decide

/-- 42_host_access R166: a byte write at 0x0C is no legal register access (V-C13). -/
theorem test_byte_access_is_refused : legalAccess 0x0C#6 .byte = false := by decide

/-- 42_host_access R166: a 32-bit read at 0x0D is no legal register access (V-C13). -/
theorem test_misaligned_access_is_refused : legalAccess 0x0D#6 .word = false := by decide

/-- 30_encoding R97, bit by bit: NOP is 32 zero bits. -/
theorem test_decode_nop : decode 0b00000000000000000000000000000000#32 = .ok .nop := by rfl

/-- 30_encoding R97, bit by bit: EMBED has bit 0 alone. -/
theorem test_decode_embed : decode 0b00000000000000000000000000000001#32 = .ok .embed := by rfl

/-- 30_encoding R97, bit by bit: EXTRACT has bit 1 alone. -/
theorem test_decode_extract : decode 0b00000000000000000000000000000010#32 = .ok .extract := by rfl

/-- 30_encoding R98: a word with a bit above EMBED's is reserved, not EMBED. -/
theorem test_decode_compares_the_whole_word : decode 0x80000001#32 = .error (.reserved 0x80000001#32) := by rfl

/-- The table's words as the host numbers them (spec/opcode_table.json). -/
theorem test_decode_table_words :
    decodeTableWord 32 0 = some .nop ∧ decodeTableWord 32 1 = some .embed ∧ decodeTableWord 32 2 = some .extract ∧
    decodeTableWord 32 3 = none := by decide

/-! ## Primitives -/

/-- V-A1. -/
theorem test_new_red :
    newRed 0xFF#8 false = 0xFE#8 ∧ newRed 0x00#8 true = 0x01#8 ∧ newRed 0x81#8 false = 0x80#8 ∧
    newRed 0x7E#8 true = 0x7F#8 := by decide

/-- V-A3, the wrapping rows. -/
theorem test_addresses_wrap :
    redAddrAt 0xFFFFFFFE#32 1 = 0x00000001#32 ∧ payAddrAt 0xFFFFFFFF#32 1 = 0x00000000#32 ∧
    redAddrAt 0x1000#32 55 = 0x10A5#32 := by decide

/-- V-A4: an exact product. -/
theorem test_pixel_count_does_not_wrap :
    pixelCount { fresh with width := 0x10000#32, height := 0x10000#32 } = 4294967296 := by decide

/-- 95_test_vectors section 0: header stream bits 0 to 7 of the illustrative magic are 11001010. -/
theorem test_header_bits :
    (List.range 8).map (streamBit 0x475453#24 13#16 (fun _ => 0x48#8)) =
      [true, true, false, false, true, false, true, false] := by decide

/-- V-A5: the length 13 and the byte 48. -/
theorem test_length_and_payload_bits :
    (List.range 8).map (fun i => streamBit 0x475453#24 13#16 (fun _ => 0x48#8) (24 + i)) =
      [true, false, true, true, false, false, false, false] ∧
    (List.range 8).map (fun i => streamBit 0x475453#24 13#16 (fun _ => 0x48#8) (40 + i)) =
      [false, false, false, true, false, false, true, false] := by decide

/-- V-S1, V-S8: well-formed UTF-8 that is not ASCII. -/
theorem test_utf8_accepts :
    textValid .utf8 [0x63#8, 0x61#8, 0x66#8, 0xC3#8, 0xA9#8] = true ∧
    textValid .utf8 [0xF0#8, 0x9F#8, 0x98#8, 0x80#8] = true ∧
    textValid .ascii [0xC3#8, 0xA9#8] = false := by decide

/-- V-S4 to V-S7, V-S11: cut off, overlong, surrogate, above U+10FFFF, lone continuation. -/
theorem test_utf8_rejects :
    textValid .utf8 [0xC3#8] = false ∧ textValid .utf8 [0xC0#8, 0x80#8] = false ∧
    textValid .utf8 [0xED#8, 0xA0#8, 0x80#8] = false ∧ textValid .utf8 [0xF4#8, 0x90#8, 0x80#8, 0x80#8] = false ∧
    textValid .utf8 [0x80#8] = false := by decide

/-! ## One step each -/

/-- V-C10: CONFIG keeps three bits. -/
theorem test_config_keeps_three_bits : regRead (writeConfig 0xFFFFFFFF#32 fresh) 0x0C#6 = 0x00000007#32 := by decide

/-- V-C6: STATUS 0x6, write 0x2, STATUS 0x4. -/
theorem test_status_write_one_to_clear :
    statusWord (clearStatus 0x2#32 { fresh with done := true, cmdIgnored := true }) = 0x4#32 := by decide

/-- V-C2: a reserved word sets CMD_IGNORED and keeps RESULT. -/
theorem test_reserved_command :
    ∃ t, command 3#32 { fresh with done := true, result := .insufficientCapacity } = .next t ∧
      regRead t 0x04#6 = 0x6#32 ∧ regRead t 0x08#6 = 3#32 :=
  ⟨_, rfl, by decide, by decide⟩

/-- V-C1: NOP on a busy or idle block changes nothing. -/
theorem test_nop : ∃ t, exec .nop (embedding .eScan 0) = .next t ∧ t = embedding .eScan 0 := ⟨_, rfl, rfl⟩

/-- V-E3b: PAYLOAD_LEN = 65536 ends after one engine step with code 1. -/
theorem test_embed_too_large :
    ∃ t, exec .embed { fresh with payloadLen := 65536#32 } = .next t ∧
      regRead (engineTurn t) 0x08#6 = 1#32 ∧ regRead (engineTurn t) 0x04#6 = 0x2#32 :=
  ⟨_, rfl, by decide, by decide⟩

/-- P1: with every grid byte FF the red byte of pixel 24 becomes FE for a length with bit 0 clear, and the step counts. -/
theorem test_embed_write_step :
    (engineTurn { embedding .eWrite 24 with sL := 2#32, mem := [(0x1048, 0xFF#8)] }).mem = [(0x1048, 0xFE#8)] ∧
    (engineTurn { embedding .eWrite 24 with sL := 2#32, mem := [(0x1048, 0xFF#8)] }).k = 25 := by decide

/-- V-C14: EXTRACT on an idle block with DONE = 1 and RESULT = 3. -/
theorem test_extract_start :
    ∃ t, exec .extract { fresh with done := true, result := .insufficientCapacity, decodedLen := 9 } = .next t ∧
      regRead t 0x04#6 = 0x1#32 ∧ regRead t 0x08#6 = 0#32 ∧ regRead t 0x24#6 = 0#32 :=
  ⟨_, rfl, by decide, by decide, by decide⟩

/-- V-X5a: no pixels in ERROR mode: code 6 at the first step, BITPOS 0. -/
theorem test_extract_no_pixels :
    regRead (engineTurn (extracting 0 0 .error)) 0x08#6 = 6#32 ∧
    regRead (engineTurn (extracting 0 0 .error)) 0x28#6 = 0#32 := by decide

/-! ## Witnesses: the hypotheses of each statement can be met -/

theorem fresh_quiet : fresh.Quiet := ⟨rfl, rfl⟩

theorem fresh_blockAtReset : fresh.BlockAtReset := by
  refine ⟨?_, ?_, ?_, ?_, ?_, ?_, ?_, ?_, ?_, ?_, ?_, ?_, ?_, ?_, ?_, ?_, ?_, ?_, ?_, ?_, ?_, ?_, ?_, ?_, ?_, ?_⟩ <;> rfl

/-- The invariant of a state without races, older memories and reset, from its own fields. -/
theorem inv_of {s : State} (h1 : s.mem.wf = true) (h2 : s.views = []) (h3 : s.sN < 2 ^ 64) (h4 : s.k ≤ maxStream)
    (h5 : s.j ≤ Config.maxLen) (h6 : s.dec.length ≤ Config.maxLen)
    (h7 : s.busy = true → s.done = false ∧ s.result = .ok) (h8 : s.PhaseInv) (h9 : s.races = [])
    (h10 : s.rst = false) : s.Inv :=
  ⟨h1, by simp [h2], h3, h4, h5, h6, h7, h8, by simp [State.RaceInv, h9], by simp [h10]⟩

theorem fresh_inv : fresh.Inv :=
  inv_of rfl rfl (by decide) (by decide) (by decide) (by decide) (by decide) rfl rfl rfl

theorem embedding_scan_inv : (embedding .eScan 0).Inv :=
  inv_of rfl rfl (by decide) (by decide) (by decide) (by decide) (by decide)
    ⟨rfl, by decide, by decide⟩ rfl rfl

theorem embedding_write_inv : (embedding .eWrite 47).Inv :=
  inv_of rfl rfl (by decide) (by decide) (by decide) (by decide) (by decide)
    ⟨by decide, by decide, by decide, by decide⟩ rfl rfl

theorem extracting_inv : (extracting 0 0 .error).Inv :=
  inv_of rfl rfl (by decide) (by decide) (by decide) (by decide) (by decide)
    ⟨by decide, by decide, fun _ => ⟨rfl, rfl⟩, by decide⟩ rfl rfl

/-- With no holes any footprint is backed. -/
theorem footprintBacked_of_no_holes {s : State} (h : s.platform.holes = []) : s.FootprintBacked :=
  fun a _ => backed_of_no_holes h a

theorem witness_CommandWordsDecodeAndEncode :
    Instr.nop.wellFormed = true ∧ decode 0x00000002#32 = .ok .extract ∧
    (0x00000003#32 ≠ 0x00000000#32 ∧ 0x00000003#32 ≠ 0x00000001#32 ∧ 0x00000003#32 ≠ 0x00000002#32) := by
  refine ⟨rfl, rfl, by decide⟩

theorem witness_EmbedOnIdleBlockStarts : fresh.busy = false := rfl

theorem witness_ExtractOnIdleBlockStarts : { fresh with done := true }.busy = false := rfl

theorem witness_CommandDecoderFollowsItsTable : (embedding .eScan 0).busy = true ∧ Instr.embed ≠ .nop := by decide

theorem witness_StepRunsTheDecodedCommand :
    ({ fresh with script := [.regWrite 0x00#6 .word 1#32] } : State).script = .regWrite 0x00#6 .word 1#32 :: [] ∧
    fresh.rst = false ∧ ({ fresh with rst := true } : State).rst = true ∧ decode 1#32 = .ok .embed ∧
    decode 3#32 = .error (.reserved 3#32) ∧ fresh.script = [] :=
  ⟨rfl, rfl, rfl, rfl, rfl, rfl⟩

theorem witness_AssertedResetRestoresTheBlock :
    ({ embedding .eWrite 3 with script := [.rstAssert] } : State).script = .rstAssert :: [] ∧
    ∀ r ∈ (embedding .eWrite 3).races, r.addr ≠ 0x1000#32 := ⟨rfl, by decide⟩

theorem witness_BlockIsHeldWhileResetIsAsserted :
    ∃ s t : State, s.rst = true ∧ s.BlockAtReset ∧ step s = .next t :=
  ⟨{ fresh with rst := true, script := [.regWrite 0x10#6 .word 5#32] }, _, rfl, fresh_blockAtReset, rfl⟩

theorem witness_IllegalRegisterAccessDoesNothing :
    (AccessSize.byte ≠ .word ∨ (0x0C#6).toNat % 4 ≠ 0) ∧ (AccessSize.word ≠ .word ∨ (0x0D#6).toNat % 4 ≠ 0) := by decide

theorem witness_RegisterReadChangesNothing :
    ({ fresh with script := [.regRead 0x3C#6 .word] } : State).script = .regRead 0x3C#6 .word :: [] ∧
    (0x3C#6).toNat % 4 = 0 := ⟨rfl, by decide⟩

theorem witness_RegisterWriteEffects :
    ({ embedding .eScan 0 with script := [.regWrite 0x20#6 .word 9#32] } : State).script =
      .regWrite 0x20#6 .word 9#32 :: [] ∧
    (0x20#6).toNat % 4 = 0 ∧ (embedding .eScan 0).rst = false := ⟨rfl, by decide, rfl⟩

/-- The first address past the window, and, with the window's last byte at 2^32 - 1, the address 0: the sum does not wrap
(00_scope R11). -/
theorem witness_BusAddressSelectsTheWindow :
    (∀ off : BitVec 6, 0x40000040 ≠ busAddr fresh off) ∧
    ∀ off : BitVec 6, 0 ≠ busAddr { fresh with platform := { testPlatform with regBase := 0xFFFFFFC1 } } off := by
  refine ⟨fun off h => ?_, fun off h => ?_⟩ <;>
    simp only [busAddr, fresh, testPlatform] at h <;> have := off.isLt <;> omega

/-- 42_host_access R178: STATUS is at REG_BASE + 4, the last slot at REG_BASE + 60, and REG_BASE + 64 is outside. -/
theorem test_bus_addresses :
    regOffset fresh 0x40000004 = some 0x04#6 ∧ regOffset fresh 0x4000003C = some 0x3C#6 ∧
    regOffset fresh 0x40000040 = none ∧ regOffset fresh 0x3FFFFFFF = none := by decide

theorem witness_IrqFollowsDoneAndEnable : (0x2#32).getLsbD 1 = true := by decide

theorem witness_FinishDoesExactly : (embedding .eWrite 47).races = [] := rfl

theorem witness_EmbedLengthAndCapacityChecks :
    fresh.rst = false ∧ ({ embedding .eLen 0 with sL := 65536#32 } : State).phase = .eLen ∧
    ({ embedding .eLen 0 with sL := 65535#32 } : State).phase = .eLen ∧
    ({ embedding .eCap 0 with sN := 47 } : State).phase = .eCap ∧ (embedding .eCap 0).phase = .eCap :=
  ⟨rfl, rfl, rfl, rfl, rfl⟩

/-- With no race and no outstanding host write no step is disturbed. -/
theorem stepUndisturbed_of_quiet {s : State} (h : s.Quiet) : s.StepUndisturbed :=
  fun _ _ => ⟨by simp [h.1], by simp [h.2]⟩

theorem witness_EmbedAsciiScan :
    (embedding .eScan 0).phase = .eScan ∧ (embedding .eScan 0).rst = false ∧ (embedding .eScan 0).StepUndisturbed ∧
    (embedding .eScan 0).j = (embedding .eScan 0).sL.toNat ∧
    ({ embedding .eScan 0 with j := 0 } : State).j ≠ (embedding .eScan 0).sL.toNat ∧
    ({ embedding .eScan 0 with j := 0, posted := [(0x801#32, 1#8)] } : State).StepUndisturbed ∧
    backed (embedding .eScan 0) (payAddr (embedding .eScan 0) 0) = true := by
  refine ⟨rfl, rfl, stepUndisturbed_of_quiet ⟨rfl, rfl⟩, rfl, by decide, ?_, by decide⟩
  intro a ha
  have h : a = 0x800#32 := by simpa [engineAccesses, embedding, payAddr, payAddrAt] using ha
  subst h
  exact ⟨by simp [embedding, fresh, State.reset], fun c hc => by simp_all [embedding, fresh]⟩

theorem witness_EmbedWriteStep :
    (embedding .eWrite 40).phase = .eWrite ∧ (embedding .eWrite 40).rst = false ∧
    (embedding .eWrite 40).StepUndisturbed ∧
    ∀ a ∈ engineAccesses (embedding .eWrite 40), backed (embedding .eWrite 40) a = true :=
  ⟨rfl, rfl, stepUndisturbed_of_quiet ⟨rfl, rfl⟩, fun a _ => backed_of_no_holes rfl a⟩

theorem witness_ExtractStep :
    (extracting 48 47 .error).phase = .xBits ∧ (extracting 48 47 .error).rst = false ∧
    (extracting 48 47 .error).StepUndisturbed ∧
    (∀ a ∈ engineAccesses (extracting 48 47 .error), backed (extracting 48 47 .error) a = true) ∧
    ((extracting 48 48 .error).sN ≤ (extracting 48 48 .error).k ∧ (extracting 48 48 .error).sTM = .error) ∧
    ((extracting 48 47 .error).k < (extracting 48 47 .error).sN ∨ (extracting 48 47 .error).sTM = .zeroFill) :=
  ⟨rfl, rfl, stepUndisturbed_of_quiet ⟨rfl, rfl⟩, fun a _ => backed_of_no_holes rfl a, by decide, by decide⟩

theorem witness_MissingPixelsFollowTheTruncationMode :
    ((extracting 0 0 .error).Inv ∧ (extracting 0 0 .error).phase = .xBits ∧ (extracting 0 0 .error).sTM = .error ∧
      (extracting 0 0 .error).sN ≤ (extracting 0 0 .error).k ∧ (extracting 0 0 .error).races = []) ∧
    ((extracting 5 5 .zeroFill).phase = .xBits ∧ (extracting 5 5 .zeroFill).sTM = .zeroFill ∧
      (extracting 5 5 .zeroFill).result ≠ .truncatedImage ∧
      (extracting 5 5 .zeroFill).sN ≤ (extracting 5 5 .zeroFill).k ∧ (extracting 5 5 .zeroFill).rst = false ∧
      engineStuck (extracting 5 5 .zeroFill) = false) :=
  ⟨⟨extracting_inv, rfl, rfl, by decide, rfl⟩, rfl, rfl, by decide, by decide, rfl, engineStuck_of_no_holes rfl⟩

/-- A grid of 24 pixels, all zero. -/
def zeroGrid : State := { fresh with width := 24#32, height := 1#32, gridBase := 0x1000#32 }

/-- A grid of no pixels, in ZERO_FILL mode. -/
def noPixels : State := { fresh with truncMode := .zeroFill }

/-- 41_extract R153 with 00_scope R9: a grid of zeros, and a grid of no pixels in ZERO_FILL mode. -/
theorem witness_MissingPixelsFollowTheTruncationMode_zeros :
    (zeroGrid.rst = false ∧ zeroGrid.Quiet ∧ zeroGrid.MagicNotZero ∧
      24 ≤ zeroGrid.width.toNat * zeroGrid.height.toNat ∧
      ∀ p < 24, p < zeroGrid.width.toNat * zeroGrid.height.toNat →
        backed zeroGrid (redAddrAt zeroGrid.gridBase p) = true ∧
        redBit (redByte zeroGrid.mem zeroGrid.gridBase p) = false) ∧
    (noPixels.rst = false ∧ noPixels.Quiet ∧ noPixels.MagicNotZero ∧ noPixels.truncMode = .zeroFill ∧
      ¬ 0 < noPixels.width.toNat * noPixels.height.toNat) := by
  refine ⟨⟨rfl, ⟨rfl, rfl⟩, ?_, by decide, fun p _ _ => ⟨backed_of_no_holes rfl _, ?_⟩⟩,
    rfl, ⟨rfl, rfl⟩, ?_, rfl, by decide⟩
  · exact fun h => absurd h (by decide)
  · show redBit (Memory.read [] _) = false
    rw [Memory.read_nil]
    decide
  · exact fun h => absurd h (by decide)

/-- V-X5b: no pixels in ZERO_FILL mode: code 4 and BITPOS 24 after 24 steps. -/
theorem test_extract_no_pixels_zero_fill :
    regRead (runEngine 24 (startExtract noPixels)) 0x08#6 = 4#32 ∧
    regRead (runEngine 24 (startExtract noPixels)) 0x28#6 = 24#32 := by decide

theorem witness_PlacingABitSetsOneBit : (7 : Nat) < 8 := by decide

/-- A stuck engine: the byte 0x800 is not backed. -/
def stuckState : State :=
  { embedding .eScan 0 with j := 0, platform := { testPlatform with holes := [{ base := 0x800, size := 1 }] } }

theorem witness_EngineWaitsWhenIdleInResetOrStuck :
    fresh.phase = .idle ∧ ({ fresh with rst := true } : State).rst = true ∧ engineStuck stuckState = true ∧
    (∃ t, step { stuckState with script := [.regWrite 0x00#6 .word 1#32] } = .next t) ∧
    ({ stuckState with script := [.regWrite 0x00#6 .word 1#32] } : State).script.head? ≠ some .rstAssert ∧
    ((embedding .eScan 0).phase ≠ .idle ∧ (embedding .eScan 0).rst = false ∧
      engineStuck (embedding .eScan 0) = false) ∧
    (stuckState.busy = true ∧
      Event.memRead 0x800#32 ∉ [Event.engine, .waitDone, .waitIrq, .rstAssert, .rstRelease] ∧
      ∃ t, runEvent (.memRead 0x800#32) stuckState = .next t) :=
  ⟨rfl, rfl, by decide, ⟨_, rfl⟩, by decide, ⟨by decide, rfl, by decide⟩, by decide, by decide, ⟨_, rfl⟩⟩

theorem witness_EngineAddressesWrapAndAreDistinct :
    (524319 : Nat) < 524320 ∧ (65534 : Nat) < 65535 ∧
    redAddrAt 0xFFFFFFFE#32 524319 = redAddrAt 0xFFFFFFFE#32 524319 := ⟨by decide, by decide, rfl⟩

theorem witness_RedWriteChangesOnlyBitZero : (1 : Nat) ≤ 7 := by decide

theorem witness_StreamFieldsStandAtTheirBits : (23 : Nat) < 24 ∧ (2 : Nat) < 3 ∧ (7 : Nat) < 8 ∧ (15 : Nat) < 16 := by decide

theorem witness_StreamDecodesToWhatWasEncoded : (65535 : Nat) ≤ 65535 ∧ (65534 : Nat) < 65535 := by decide

theorem witness_TextChecksAreAsciiAndWellFormedUtf8 :
    textValid .ascii [0x00#8, 0x7F#8] = true ∧ textValid .utf8 [0xEF#8, 0xBF#8, 0xBF#8] = true ∧
    0xEF#8 ∈ [0xEF#8, 0xBF#8, 0xBF#8] := by decide

theorem witness_MemoryReadsWhatWasWritten :
    Memory.wf [(3, 1#8)] = true ∧ (4294967295 : Nat) < 2 ^ 32 ∧ (3 : Nat) ≠ 4294967295 ∧
    ∀ a, Memory.read [(3, 1#8)] a = Memory.read [(3, 1#8)] a := ⟨by decide, by decide, by decide, fun _ => rfl⟩

theorem witness_EngineTurnMemoryFrame :
    0x1001#32 ∉ engineAccesses (embedding .eWrite 0) ∧ ∀ r ∈ (embedding .eWrite 0).races, r.addr ≠ 0x1001#32 := by decide

theorem witness_EngineTurnRegisterFrame : (embedding .eWrite 0).phase ≠ .xBits := by decide

theorem witness_FootprintIsTheRedAndPayloadBytes :
    fresh.phase = .idle ∧ (embedding .eScan 0).phase = .eScan ∧ (extracting 48 0 .error).phase = .xBits :=
  ⟨rfl, rfl, rfl⟩

theorem witness_EngineStaysInItsFootprint :
    (embedding .eWrite 47).Inv ∧ (embedding .eWrite 47).FootprintBacked ∧
    redAddr (embedding .eWrite 47) 47 ∈ engineAccesses (embedding .eWrite 47) :=
  ⟨embedding_write_inv, footprintBacked_of_no_holes rfl, by decide⟩

theorem witness_EngineReadGivesAnAllowedValue :
    racedVals (embedding .eWrite 0) 0x1000#32 = [] ∧ postedVals (embedding .eWrite 0) 0x1000#32 = [] := ⟨rfl, rfl⟩

theorem witness_FootprintWriteMakesARace :
    (embedding .eScan 0).Inv ∧ inFootprint (embedding .eScan 0) 0x800#32 = true ∧
    inFootprint (embedding .eScan 0) 0x108D#32 = true := ⟨embedding_scan_inv, by decide, by decide⟩

/-- An EMBED whose payload byte the host has just overwritten with 41. -/
def raced : State := hostStore (embedding .eScan 0) 0x800#32 0x41#8

theorem raced_inv : raced.Inv := by
  refine ⟨by decide, by decide, by decide, by decide, by decide, by decide, by decide, ⟨rfl, by decide, by decide⟩,
    ⟨by decide, ?_⟩, fun h => absurd h (by decide)⟩
  decide

theorem witness_RacedByteEndsWithEitherValue :
    raced.Inv ∧
    { addr := 0x800#32, hostVal := 0x41#8, engineVal := none, seen := [0x00#8, 0x41#8] } ∈ raced.races :=
  ⟨raced_inv, by decide⟩

theorem witness_HostSeesEngineWritesAfterCompletion :
    fresh.busy = false ∧ postedVals fresh 0x1000#32 = [] ∧
    (finish .ok { embedding .eWrite 47 with irqEn := true }).irq = true ∧
    postedVals { embedding .eWrite 47 with irqEn := true } 0x1000#32 = [] ∧
    (({ fresh with done := true } : State).Inv ∧ (0x4#32).getLsbD 2 = true ∧
      postedVals { fresh with done := true } 0x1000#32 = []) :=
  ⟨rfl, rfl, by decide, rfl,
    inv_of rfl rfl (by decide) (by decide) (by decide) (by decide) (by decide) rfl rfl rfl, by decide, rfl⟩

theorem witness_EarlyHostReadGivesOldOrNew : postedVals (embedding .eWrite 3) 0x1000#32 = [] := rfl

theorem witness_CompletedHostWriteIsSeenByTheEngine : fresh.Inv ∧ fresh.busy = false := ⟨fresh_inv, rfl⟩

theorem witness_HostMemoryAccessLeavesTheBlock :
    (∃ a v, Event.memWrite 0x800#32 0x41#8 = .memWrite a v) ∧
    (∃ t, runEvent (.memWrite 0x800#32 0x41#8) (embedding .eScan 0) = .next t) ∧
    (embedding .eScan 0).mem.wf = true ∧ backed (embedding .eScan 0) 0x800#32 = true ∧
    backed stuckState 0x800#32 = false ∧
    (∀ c ∈ (hostMemPost 0x800#32 0x41#8 fresh).posted, c.1 ≠ 0x801#32) ∧
    (hostMemPost 0x800#32 0x41#8 fresh).posted = (0x800#32, 0x41#8) :: [] ∧
    (postedVals (hostMemPost 0x800#32 0x41#8 fresh) 0x800#32).getLast? = some 0x41#8 :=
  ⟨⟨_, _, rfl⟩, ⟨_, rfl⟩, rfl, by decide, by decide, by simp [hostMemPost, fresh, State.reset], rfl, rfl⟩

/-- 20_memory R73, 70_reset_and_hazards R227: a host read where no memory is backed leaves the block and memory. -/
theorem test_host_read_of_unbacked_address :
    (hostMemRead 0x800#32 stuckState).mem = stuckState.mem ∧ (hostMemRead 0x800#32 stuckState).phase = .eScan := by
  decide

theorem witness_EveryStepKeepsTheInvariant : (embedding .eScan 0).Inv ∧ ∃ t, step (embedding .eScan 0) = .next t :=
  ⟨embedding_scan_inv, _, rfl⟩

theorem witness_NoStepChangesThePlatform : ∃ t, step (embedding .eScan 0) = .next t := ⟨_, rfl⟩

theorem witness_OnlyACommandStartsAnOperation :
    ∃ t, step { fresh with script := [.regWrite 0x00#6 .word 1#32] } = .next t ∧ fresh.busy = false ∧ t.busy = true :=
  ⟨_, rfl, rfl, rfl⟩

theorem witness_OperationEndsOnlyByFinishOrReset :
    ∃ t, step { embedding .eLen 0 with sL := 65536#32 } = .next t ∧ (embedding .eLen 0).busy = true ∧ t.busy = false :=
  ⟨_, rfl, by decide, by decide⟩

theorem witness_LatchesHoldDuringAnOperation :
    ∃ t, step { embedding .eLen 0 with script := [.regWrite 0x20#6 .word 9#32] } = .next t ∧
      (embedding .eLen 0).busy = true ∧
      ({ embedding .eLen 0 with script := [.regWrite 0x20#6 .word 9#32] } : State).script.head? ≠ some .rstAssert :=
  ⟨_, rfl, by decide, by decide⟩

theorem witness_CmdIgnoredIsSticky :
    (∃ t, step { fresh with cmdIgnored := true, script := [.regWrite 0x04#6 .word 4#32] } = .next t ∧
      t.cmdIgnored = false) ∧
    ∃ t, step { fresh with script := [.regWrite 0x00#6 .word 3#32] } = .next t ∧ t.cmdIgnored = true :=
  ⟨⟨_, rfl, by decide⟩, _, rfl, by decide⟩

theorem witness_BitPositionOnlyCountsUp :
    (embedding .eWrite 47).Inv ∧ (∃ t, step (embedding .eWrite 47) = .next t) ∧ (embedding .eWrite 47).busy = true ∧
    (embedding .eWrite 47).script.head? ≠ some .rstAssert := ⟨embedding_write_inv, ⟨_, rfl⟩, by decide, by decide⟩

theorem witness_CommandCompletionRaceHasBothOrders :
    ({ embedding .eLen 0 with sL := 65536#32 } : State).busy = true ∧
    (engineTurn { embedding .eLen 0 with sL := 65536#32 }).busy = false ∧ 3#32 ≠ 0#32 ∧ legalCommand 3#32 = false := by
  decide

theorem witness_HiddenStateDoesNotSurvive :
    SameVisible fresh { fresh with sN := 7, sL := 3#32, j := 2, cur := 9#8, hdr := 5#24, acc := 1#8, dec := [4#8] } := by
  refine ⟨?_, ?_, ?_, ?_, ?_, ?_, ?_, ?_, ?_, ?_, ?_, ?_, ?_, ?_, ?_, ?_, ?_, ?_, ?_, ?_, ?_, ?_, ?_⟩ <;> rfl

theorem witness_EmbedChangesOnlyRedBitZero :
    fresh.Quiet ∧ fresh.mem.wf = true ∧ (1 : Nat) ≤ 7 ∧
    ∀ p < 40 + 8 * fresh.payloadLen.toNat, 0x00000001#32 ≠ redAddrAt fresh.gridBase p :=
  ⟨fresh_quiet, rfl, by decide, by decide⟩

/-- The registers of an EMBED of one byte (41) at 0x800 into a grid of 48 pixels at 0x1000. -/
def oneByte : State :=
  { fresh with
    width := 48#32, height := 1#32, gridBase := 0x1000#32, payloadBase := 0x800#32, payloadLen := 1#32
    mem := [(0x800, 0x41#8)] }

theorem oneByte_noOverlap : NoOverlap oneByte.gridBase oneByte.payloadBase 1 48 := by
  unfold NoOverlap
  decide

theorem witness_EmbedReportsTheFirstFailingCheck :
    oneByte.rst = false ∧ oneByte.Quiet ∧ (startEmbed oneByte).FootprintBacked :=
  ⟨rfl, ⟨rfl, rfl⟩, footprintBacked_of_no_holes rfl⟩

theorem witness_EmbedComputesEmbedFn :
    oneByte.rst = false ∧ oneByte.Quiet ∧ (startEmbed oneByte).FootprintBacked ∧
    (oneByte.payloadLen.toNat ≤ 65535 →
      NoOverlap oneByte.gridBase oneByte.payloadBase oneByte.payloadLen.toNat (40 + 8 * oneByte.payloadLen.toNat)) :=
  ⟨rfl, ⟨rfl, rfl⟩, footprintBacked_of_no_holes rfl, fun _ => oneByte_noOverlap⟩

theorem witness_EmbedFnLeavesTheStream :
    Memory.wf [(0x800, 0x41#8)] = true ∧ (1 : Nat) ≤ 65535 ∧ (47 : Nat) < 40 + 8 * 1 ∧
    ∀ p < 40 + 8 * 1, 0x1001#32 ≠ redAddrAt 0x1000#32 p := by decide

theorem witness_EmbedFinishesWithinItsBound :
    (oneByte.rst = false ∧ (startEmbed oneByte).FootprintBacked ∧ oneByte.payloadLen.toNat ≤ 65535) ∧
    65535 < ({ oneByte with payloadLen := 65536#32 } : State).payloadLen.toNat :=
  ⟨⟨rfl, footprintBacked_of_no_holes rfl, by decide⟩, by decide⟩

theorem witness_ExtractWritesOnlyTheOutputBuffer :
    fresh.Quiet ∧ ∀ i < 65535, 0xFFFFFFFF#32 ≠ payAddrAt fresh.payloadBase i := by
  refine ⟨fresh_quiet, fun i hi h => ?_⟩
  have h1 : (0xFFFFFFFF#32).toNat = (payAddrAt fresh.payloadBase i).toNat := congrArg BitVec.toNat h
  have h2 : (payAddrAt fresh.payloadBase i).toNat = i % 2 ^ 32 := by simp [payAddrAt, fresh, State.reset]
  rw [h2] at h1
  simp only [BitVec.toNat_ofNat] at h1
  omega

/-- The grid `oneByte`'s EMBED leaves, with the output buffer at 0x3000. -/
def embedded : State :=
  { oneByte with
    payloadBase := 0x3000#32
    mem := embedWritten 0x475453#24 [(0x800, 0x41#8)] 0x1000#32 0x800#32 1 48 }

/-- R151 on that grid: code 0, one byte, BITPOS 48. -/
theorem test_extractFn_of_embedFn :
    (extractFn 0x475453#24 embedded.mem 48 0x1000#32 0x3000#32 .error .utf8).1 = .ok ∧
    (extractFn 0x475453#24 embedded.mem 48 0x1000#32 0x3000#32 .error .utf8).2.2 = (1, 48) := by decide

theorem witness_ExtractComputesExtractFn :
    embedded.rst = false ∧ embedded.Quiet ∧ (startExtract embedded).FootprintBacked ∧
    NoOverlap embedded.gridBase embedded.payloadBase
      (extractFn 0x475453#24 embedded.mem 48 0x1000#32 0x3000#32 .error .utf8).2.2.1
      (min 48 (40 + 8 * (extractFn 0x475453#24 embedded.mem 48 0x1000#32 0x3000#32 .error .utf8).2.2.1)) := by
  refine ⟨rfl, ⟨rfl, rfl⟩, footprintBacked_of_no_holes rfl, ?_⟩
  rw [test_extractFn_of_embedFn.2]
  unfold NoOverlap
  decide

theorem witness_ExtractStepsAreItsBitPosition :
    oneByte.rst = false ∧ (startExtract oneByte).FootprintBacked :=
  ⟨rfl, footprintBacked_of_no_holes rfl⟩

theorem witness_RoundTripGivesBackThePayload :
    (oneByte.rst = false ∧ oneByte.Quiet ∧ (startEmbed oneByte).FootprintBacked ∧ oneByte.payloadLen.toNat ≤ 65535 ∧
      (∀ i < oneByte.payloadLen.toNat, (payloadByte oneByte.mem oneByte.payloadBase i).toNat < 0x80) ∧
      40 + 8 * oneByte.payloadLen.toNat ≤ oneByte.width.toNat * oneByte.height.toNat ∧
      NoOverlap oneByte.gridBase oneByte.payloadBase oneByte.payloadLen.toNat (40 + 8 * oneByte.payloadLen.toNat) ∧
      oneByte.mem.wf = true) ∧
    (∀ m : Memory, m.wf = true →
      ∃ t : State, t.rst = false ∧ t.Quiet ∧ t.mem.wf = true ∧ t.platform = oneByte.platform ∧
        t.width = oneByte.width ∧ t.height = oneByte.height ∧ t.gridBase = oneByte.gridBase ∧
        (∀ p < 48, redBit (redByte t.mem oneByte.gridBase p) = redBit (redByte m oneByte.gridBase p)) ∧
        (∀ p < 48, backed t (redAddrAt oneByte.gridBase p) = true) ∧
        (∀ i < 1, backed t (payAddrAt t.payloadBase i) = true) ∧
        NoOverlap oneByte.gridBase t.payloadBase 1 48) :=
  ⟨⟨rfl, ⟨rfl, rfl⟩, footprintBacked_of_no_holes rfl, by decide, by decide, by decide, oneByte_noOverlap, rfl⟩,
    fun m hm => ⟨{ oneByte with mem := m }, rfl, ⟨rfl, rfl⟩, hm, rfl, rfl, rfl, rfl, fun _ _ => rfl,
      fun _ _ => backed_of_no_holes rfl _, fun _ _ => backed_of_no_holes rfl _, oneByte_noOverlap⟩⟩

end Sys2Proof.Tests
end

/-! PROOFS. The conventions of spec/00_scope.md: placing a bit (R10), and the parameters that no step changes (R8, with
spec/10_state.md R36). -/

namespace Sys2Proof.Machine

open Sys2Proof

/-! ## Placing a bit -/

/-- The mask that `setBit` clears and sets through has bit `i` and no other. -/
theorem getLsbD_one_shiftLeft {w n : Nat} (i : Nat) (hn : n < w) : (1#w <<< i).getLsbD n = decide (n = i) := by
  rw [← BitVec.twoPow_eq, BitVec.getLsbD_twoPow, ← Bool.decide_and, decide_eq_decide]
  omega

/-- Reading a bit of a value in which one bit was placed (00_scope R10). -/
theorem getLsbD_setBit {w n : Nat} (v : BitVec w) (i : Nat) (b : Bool) (hn : n < w) :
    (setBit v i b).getLsbD n = if n = i then b else v.getLsbD n := by
  have hmask := getLsbD_one_shiftLeft i hn
  have hset : (if b then 1#w <<< i else 0#w).getLsbD n = (b && decide (n = i)) := by
    cases b
    · simp
    · simpa only [if_true, Bool.true_and] using hmask
  rw [setBit, BitVec.getLsbD_or, BitVec.getLsbD_and, BitVec.getLsbD_not, hmask, hset]
  by_cases hi : n = i <;> simp [hn, hi]

/-! ## The platform: the engine -/

@[simp] theorem embedLen_platform (s : State) : (embedLen s).platform = s.platform := by
  unfold embedLen
  split <;> simp

@[simp] theorem embedScan_platform (s : State) : (embedScan s).platform = s.platform := by
  unfold embedScan
  split
  · rfl
  · dsimp only
    split <;> simp

@[simp] theorem embedCap_platform (s : State) : (embedCap s).platform = s.platform := by
  unfold embedCap
  split <;> simp

@[simp] theorem embedFetch_platform (s : State) : (embedFetch s).platform = s.platform := by
  unfold embedFetch
  split <;> simp

@[simp] theorem embedPut_platform (s : State) : (embedPut s).platform = s.platform := by
  simp [embedPut]

@[simp] theorem embedWrite_platform (s : State) : (embedWrite s).platform = s.platform := by
  unfold embedWrite
  dsimp only
  split <;> simp

@[simp] theorem placeBit_platform (b : Bool) (s : State) : (placeBit b s).platform = s.platform := by
  unfold placeBit
  split
  · rfl
  · split <;> rfl

@[simp] theorem extractEnd_platform (s : State) : (extractEnd s).platform = s.platform := by
  simp [extractEnd]

/-- The acts at the four kinds of stream index: the header's end, the length's end, a payload byte's end, and none. -/
@[simp] theorem extractAct_platform (s : State) : (extractAct s).platform = s.platform := by
  unfold extractAct
  split
  · split <;> simp
  · split
    · dsimp only
      split <;> simp
    · split
      · dsimp only
        split <;> simp
      · rfl

@[simp] theorem extractBits_platform (s : State) : (extractBits s).platform = s.platform := by
  unfold extractBits
  split
  · simp
  · split <;> simp

@[simp] theorem engineStep_platform (s : State) : (engineStep s).platform = s.platform := by
  unfold engineStep
  split <;> simp

@[simp] theorem engineTurn_platform (s : State) : (engineTurn s).platform = s.platform := by
  rcases engineTurn_cases s with h | ⟨-, -, -, h⟩ <;> simp [h]

/-! ## The platform: the host and `rst` -/

@[simp] theorem resetBlock_platform (s : State) : (resetBlock s).platform = s.platform := rfl

@[simp] theorem writeConfig_platform (v : Word) (s : State) : (writeConfig v s).platform = s.platform := rfl

@[simp] theorem drainOne_platform (s : State) : (drainOne s).platform = s.platform := by
  unfold drainOne
  split <;> simp

@[simp] theorem hostMemRead_platform (a : Addr) (s : State) : (hostMemRead a s).platform = s.platform := by
  rw [hostMemRead_frame]

@[simp] theorem hostMemWrite_platform (a : Addr) (v : Byte) (s : State) :
    (hostMemWrite a v s).platform = s.platform := by
  simp [hostMemWrite]

theorem ifBacked_platform {write : State → State} {s : State} (hw : (write s).platform = s.platform) (a : Addr) :
    (ifBacked a write s).platform = s.platform := by
  unfold ifBacked
  split
  · exact hw
  · rfl

@[simp] theorem hostRegRead_platform (off : BitVec 6) (size : AccessSize) (s : State) :
    (hostRegRead off size s).platform = s.platform := by
  unfold hostRegRead
  split
  · dsimp only
    split <;> simp
  · rfl

theorem command_platform {w : Word} {s t : State} (h : command w s = .next t) : t.platform = s.platform := by
  rcases command_cases w s with ⟨-, hc⟩ | ⟨-, -, hc⟩ | ⟨-, -, hc⟩ | ⟨-, -, hc⟩ <;>
    · rw [hc] at h
      cases h
      simp

theorem hostRegWrite_platform {off : BitVec 6} {size : AccessSize} {v : Word} {s t : State}
    (h : hostRegWrite off size v s = .next t) : t.platform = s.platform := by
  rcases hostRegWrite_cases off size v s with
    hw | ⟨-, -, ⟨-, hw⟩ | ⟨-, hw⟩ | ⟨-, hw⟩ | ⟨-, hw⟩ | ⟨-, hw⟩ | ⟨-, hw⟩ | ⟨-, hw⟩ | ⟨-, hw⟩⟩ <;> rw [hw] at h
  case inr.inl => exact command_platform h
  all_goals
    cases h
    simp

/-! ## The platform: one event, one step -/

theorem runEvent_platform {e : Event} {s t : State} (h : runEvent e s = .next t) : t.platform = s.platform := by
  cases e with
  | regWrite off size v => exact hostRegWrite_platform h
  | busRead addr size =>
    simp only [runEvent] at h
    split at h <;> cases h <;> simp
  | busWrite addr size v =>
    simp only [runEvent] at h
    split at h
    · exact hostRegWrite_platform h
    · cases h
      rfl
  | memWrite a v =>
    cases h
    exact ifBacked_platform (hostMemWrite_platform a v s) a
  | memPost a v =>
    cases h
    exact ifBacked_platform (hostMemPost_platform a v s) a
  | waitDone =>
    simp only [runEvent] at h
    split at h <;> cases h <;> simp
  | waitIrq =>
    simp only [runEvent] at h
    split at h <;> cases h <;> simp
  | regRead | memRead | drain | fence | engine | rstAssert | rstRelease =>
    cases h
    simp

/-- No step changes P_MAGIC, REG_BASE or BACKED (00_scope R7, R8). -/
theorem step_platform {s t : State} (h : step s = .next t) : t.platform = s.platform := by
  unfold step at h
  split at h
  · cases h
    exact engineTurn_platform s
  · exact (runEvent_platform h).trans rfl

/-- The register MAGIC reads P_MAGIC, in every state (10_state R36). -/
theorem regRead_magic (s : State) : regRead s 0x2C#6 = s.platform.magic.setWidth 32 := rfl

/-! ## The obligations -/

/-- Settles O23: the mask of `setBit` has bit `i` alone, so clearing through it and then setting through it touches that
bit and no other. -/
theorem placingABitSetsOneBit : Obligations.PlacingABitSetsOneBit := by
  unfold Obligations.PlacingABitSetsOneBit
  exact fun _ v i _ b hn => getLsbD_setBit v i b hn

/-- Settles O44: every event and every turn of the engine keeps the platform, and MAGIC reads nothing else. -/
theorem noStepChangesThePlatform : Obligations.NoStepChangesThePlatform := by
  unfold Obligations.NoStepChangesThePlatform
  intro s t h
  have hplatform := step_platform h
  exact ⟨hplatform, by rw [regRead_magic, regRead_magic, hplatform]⟩

end Sys2Proof.Machine

/-! PROOFS. No hidden engine state survives into the next operation (spec/10_state.md R49): two runs that agree on what
can be seen, and on the hidden state that is live in their phase, go on agreeing. -/

namespace Sys2Proof.Machine

open Sys2Proof

/-! ## Agreement on the visible state -/

/-- The state with the hidden engine state erased: what `SameVisible` compares. -/
def State.visible (s : State) : State :=
  { s with
    sN := 0, sGB := 0, sPB := 0, sL := 0, sTM := .error, sXM := .utf8, j := 0, cur := 0, hdr := 0, lenacc := 0
    acc := 0, dec := [] }

theorem sameVisible_iff {s t : State} : SameVisible s t ↔ s.visible = t.visible := by
  simp [SameVisible, State.visible]

/-- Whatever is computed from the visible state alone is the same. -/
theorem SameVisible.congr {α : Type} {s t : State} (h : SameVisible s t) (f : State → α) : f s.visible = f t.visible :=
  congrArg f (sameVisible_iff.1 h)

theorem SameVisible.phase {s t : State} (h : SameVisible s t) : s.phase = t.phase := h.congr State.phase

theorem SameVisible.k {s t : State} (h : SameVisible s t) : s.k = t.k := h.congr State.k

theorem SameVisible.rst {s t : State} (h : SameVisible s t) : s.rst = t.rst := h.congr State.rst

theorem SameVisible.platform {s t : State} (h : SameVisible s t) : s.platform = t.platform := h.congr State.platform

theorem SameVisible.decodedLen {s t : State} (h : SameVisible s t) : s.decodedLen = t.decodedLen :=
  h.congr State.decodedLen

/-- An operation whose visible result depends on the visible state alone keeps the agreement. -/
theorem SameVisible.map {s t : State} (h : SameVisible s t) (f : State → State)
    (hf : ∀ u : State, (f u).visible = (f u.visible).visible) : SameVisible (f s) (f t) := by
  rw [sameVisible_iff] at h ⊢
  rw [hf s, hf t, h]

theorem SameVisible.engineRead_value {s t : State} (h : SameVisible s t) (a : Addr) :
    (engineRead s a).1 = (engineRead t a).1 :=
  h.congr fun u => (engineRead u a).1

theorem SameVisible.engineRead {s t : State} (h : SameVisible s t) (a : Addr) :
    SameVisible (engineRead s a).2 (engineRead t a).2 :=
  h.map (fun u => (Machine.engineRead u a).2) fun _ => rfl

theorem visible_settleRace (s : State) (r : Race) : (settleRace s r).visible = settleRace s.visible r := by
  unfold settleRace
  split <;> rfl

/-- Settling the races looks at visible state only, race by race. -/
theorem visible_settle (s : State) : (settle s).visible = settle s.visible := by
  have hfold : ∀ (l : List Race) (u : State),
      (l.foldl settleRace u).visible = l.foldl settleRace u.visible := by
    intro l
    induction l with
    | nil => exact fun _ => rfl
    | cons r l ih => exact fun u => (ih _).trans (by rw [visible_settleRace, List.foldl_cons])
  exact congrArg (fun t => ({ s.visible with mem := t.mem, choices := t.choices, races := [] } : State))
    (hfold s.races s)

theorem visible_finish (r : Result) (s : State) : (finish r s).visible = finish r s.visible :=
  congrArg (fun u : State => hostSeesIrq { u with result := r, done := true, phase := .idle }) (visible_settle s)

theorem SameVisible.finish {s t : State} (h : SameVisible s t) (r : Result) :
    SameVisible (finish r s) (finish r t) :=
  h.map (Machine.finish r) fun u => by rw [visible_finish, visible_finish]; rfl

/-! ## Agreement on the live hidden state -/

/-- What the phases of EMBED use of the hidden state, but for the current payload byte. -/
structure EmbedAgree (s t : State) : Prop where
  sN : s.sN = t.sN
  sGB : s.sGB = t.sGB
  sPB : s.sPB = t.sPB
  sL : s.sL = t.sL
  j : s.j = t.j

/-- What EXTRACT uses of the hidden state at stream bit `k`: of each field under assembly only the bits already placed. -/
structure ExtractAgree (s t : State) : Prop where
  sN : s.sN = t.sN
  sGB : s.sGB = t.sGB
  sPB : s.sPB = t.sPB
  sTM : s.sTM = t.sTM
  sXM : s.sXM = t.sXM
  dec : s.dec = t.dec
  hdr : ∀ i < s.k, s.hdr.getLsbD i = t.hdr.getLsbD i
  lenacc : ∀ i < s.k - 24, s.lenacc.getLsbD i = t.lenacc.getLsbD i
  acc : ∀ i < (s.k - 40) % 8, s.acc.getLsbD i = t.acc.getLsbD i

/-- Agreement on the hidden state a later step of the running operation can still use. EMBED's current payload byte is
live only between two payload bytes: at the first bit of each it is read again. -/
def LiveAgree (s t : State) : Prop :=
  match s.phase with
  | .idle => True
  | .eLen | .eScan | .eCap => EmbedAgree s t
  | .eWrite => EmbedAgree s t ∧ ((s.k - 40) % 8 ≠ 0 → s.cur = t.cur)
  | .xBits => ExtractAgree s t

/-- The relation of the noninterference proof: agreement on the visible and on the live hidden state. -/
def SameLive (s t : State) : Prop := SameVisible s t ∧ LiveAgree s t

/-- Two steps that take the same branch agree if the branches do. -/
theorem SameLive.ite {p q : Prop} [Decidable p] [Decidable q] (hpq : p ↔ q) {s t s' t' : State}
    (hpos : p → SameLive s t) (hneg : ¬p → SameLive s' t') :
    SameLive (if p then s else s') (if q then t else t') := by
  by_cases hp : p
  · rw [if_pos hp, if_pos (hpq.1 hp)]
    exact hpos hp
  · rw [if_neg hp, if_neg (mt hpq.2 hp)]
    exact hneg hp

theorem SameLive.of_embedAgree {s t : State} (hv : SameVisible s t) (he : EmbedAgree s t)
    (hp : s.phase = .eLen ∨ s.phase = .eScan ∨ s.phase = .eCap) : SameLive s t := by
  refine ⟨hv, ?_⟩
  unfold LiveAgree
  rcases hp with hp | hp | hp <;> rw [hp] <;> exact he

theorem SameLive.of_extractAgree {s t : State} (hv : SameVisible s t) (he : ExtractAgree s t)
    (hp : s.phase = .xBits) : SameLive s t := by
  refine ⟨hv, ?_⟩
  unfold LiveAgree
  rw [hp]
  exact he

/-- After `Finish` no hidden state is live. -/
theorem SameVisible.finish_sameLive {s t : State} (h : SameVisible s t) (r : Result) :
    SameLive (Machine.finish r s) (Machine.finish r t) :=
  ⟨h.finish r, trivial⟩

/-! ## The starts -/

theorem SameVisible.startEmbed_sameLive {s t : State} (h : SameVisible s t) :
    SameLive (startEmbed s) (startEmbed t) :=
  ⟨h.map startEmbed fun _ => rfl,
    { sN := h.congr pixelCount
      sGB := h.congr State.gridBase
      sPB := h.congr State.payloadBase
      sL := h.congr State.payloadLen
      j := rfl }⟩

theorem SameVisible.startExtract_sameLive {s t : State} (h : SameVisible s t) :
    SameLive (startExtract s) (startExtract t) :=
  ⟨h.map startExtract fun _ => rfl,
    { sN := h.congr pixelCount
      sGB := h.congr State.gridBase
      sPB := h.congr State.payloadBase
      sTM := h.congr State.truncMode
      sXM := h.congr State.textMode
      dec := rfl
      hdr := fun _ hi => absurd hi (Nat.not_lt_zero _)
      lenacc := fun _ hi => absurd hi (Nat.not_lt_zero _)
      acc := fun _ hi => absurd hi (Nat.not_lt_zero _) }⟩

/-! ## The steps of EMBED -/

theorem embedLen_sameLive {s t : State} (hv : SameVisible s t) (he : EmbedAgree s t) :
    SameLive (embedLen s) (embedLen t) := by
  unfold embedLen
  refine SameLive.ite (by rw [he.sL]) (fun _ => hv.finish_sameLive _) fun _ => ?_
  exact .of_embedAgree (hv.map (fun u => { u with phase := .eScan }) fun _ => rfl) { he with } (.inr (.inl rfl))

theorem embedScan_sameLive {s t : State} (hv : SameVisible s t) (he : EmbedAgree s t) (hp : s.phase = .eScan) :
    SameLive (embedScan s) (embedScan t) := by
  have haddr : payAddr t t.j = payAddr s s.j := by rw [payAddr, payAddr, he.sPB, he.j]
  have hread := hv.engineRead (payAddr s s.j)
  unfold embedScan
  rw [haddr]
  refine SameLive.ite (by rw [he.sL, he.j]) (fun _ => ?_) fun _ => SameLive.ite ?_ (fun _ => ?_) fun _ => ?_
  · exact .of_embedAgree (hv.map (fun u => { u with phase := .eCap }) fun _ => rfl) { he with } (.inr (.inr rfl))
  · exact iff_of_eq (congrArg (fun b : Byte => b.toNat ≥ Config.asciiLimit) (hv.engineRead_value _))
  · exact hread.finish_sameLive _
  · exact .of_embedAgree (hread.map (fun u => { u with j := u.j + 1 }) fun _ => rfl)
      { he with j := congrArg (· + 1) he.j } (.inr (.inl hp))

theorem embedCap_sameLive {s t : State} (hv : SameVisible s t) (he : EmbedAgree s t) :
    SameLive (embedCap s) (embedCap t) := by
  unfold embedCap
  refine SameLive.ite (by rw [he.sN, he.sL]) (fun _ => hv.finish_sameLive _) fun _ => ?_
  exact ⟨hv.map (fun u => { u with k := 0, phase := .eWrite }) fun _ => rfl, { he with }, fun h => absurd rfl h⟩

/-- The fetch of a write step leaves the payload byte of stream bit `k` in `cur`, whatever `cur` was at the first bit of
that byte. -/
theorem embedFetch_agree {s t : State} (hv : SameVisible s t) (he : EmbedAgree s t)
    (hcur : (s.k - 40) % 8 ≠ 0 → s.cur = t.cur) :
    SameVisible (embedFetch s) (embedFetch t) ∧ EmbedAgree (embedFetch s) (embedFetch t) ∧
      (40 ≤ s.k → (embedFetch s).cur = (embedFetch t).cur) := by
  have hpay : ∀ p, payAddr t p = payAddr s p := fun p => by rw [payAddr, payAddr, he.sPB]
  have hread : embedPayloadRead t = embedPayloadRead s := by rw [embedPayloadRead, embedPayloadRead, hv.k]
  unfold embedFetch
  rw [hread]
  cases h : embedPayloadRead s with
  | none =>
    refine ⟨hv, he, fun hk => hcur fun h0 => ?_⟩
    simp [embedPayloadRead, hk, h0] at h
  | some p =>
    dsimp only
    rw [hpay, hv.engineRead_value]
    exact ⟨(hv.engineRead _).map (fun u => { u with cur := (engineRead t (payAddr s p)).1 }) fun _ => rfl,
      { he with }, fun _ => rfl⟩

/-- The stream bit of a write step uses `cur` in the payload only (30_encoding R92). -/
theorem embedBit_congr {s t : State} (hv : SameVisible s t) (he : EmbedAgree s t)
    (hcur : 40 ≤ s.k → s.cur = t.cur) : embedBit s = embedBit t := by
  unfold embedBit streamBit
  rw [hv.platform, he.sL, ← hv.k]
  by_cases hk : 40 ≤ s.k
  · rw [hcur hk]
  · rw [if_pos (c := s.k < 40) (by omega), if_pos (c := s.k < 40) (by omega)]

@[simp] theorem embedFetch_k (s : State) : (embedFetch s).k = s.k := by
  unfold embedFetch
  split <;> rfl

@[simp] theorem embedFetch_phase (s : State) : (embedFetch s).phase = s.phase := by
  unfold embedFetch
  split <;> rfl

@[simp] theorem embedPut_k (s : State) : (embedPut s).k = s.k + 1 := rfl

@[simp] theorem embedPut_phase (s : State) : (embedPut s).phase = s.phase := rfl

@[simp] theorem embedPut_cur (s : State) : (embedPut s).cur = s.cur := rfl

theorem embedPut_agree {s t : State} (hv : SameVisible s t) (he : EmbedAgree s t)
    (hcur : 40 ≤ s.k → s.cur = t.cur) :
    SameVisible (embedPut s) (embedPut t) ∧ EmbedAgree (embedPut s) (embedPut t) := by
  have haddr : redAddr t t.k = redAddr s s.k := by rw [redAddr, redAddr, he.sGB, hv.k]
  unfold embedPut
  rw [haddr, ← embedBit_congr hv he hcur]
  dsimp only
  rw [hv.engineRead_value]
  generalize redAddr s s.k = a
  generalize newRed (engineRead t a).1 (embedBit s) = v
  exact ⟨hv.map (fun u => { engineWrite (engineRead u a).2 a v with k := u.k + 1 }) fun _ => rfl, { he with }⟩

theorem embedWrite_sameLive {s t : State} (hv : SameVisible s t) (he : EmbedAgree s t)
    (hcur : (s.k - 40) % 8 ≠ 0 → s.cur = t.cur) (hp : s.phase = .eWrite) :
    SameLive (embedWrite s) (embedWrite t) := by
  obtain ⟨hv1, he1, hcur1⟩ := embedFetch_agree hv he hcur
  obtain ⟨hv2, he2⟩ := embedPut_agree hv1 he1 (by simpa using hcur1)
  unfold embedWrite
  refine SameLive.ite (by rw [hv2.k, he2.sL]) (fun _ => hv2.finish_sameLive _) fun _ => ⟨hv2, ?_⟩
  unfold LiveAgree
  rw [embedPut_phase, embedFetch_phase, hp]
  refine ⟨he2, fun hmid => ?_⟩
  rw [embedPut_k, embedFetch_k] at hmid
  exact hcur1 (by omega)

/-! ## The steps of EXTRACT -/

/-- Placing the same bit at `i` in two values that agree below `i` makes them agree up to `i`. -/
theorem getLsbD_setBit_congr {w i : Nat} {v v' : BitVec w} (b : Bool) (h : ∀ n < i, v.getLsbD n = v'.getLsbD n) :
    ∀ n < i + 1, (setBit v i b).getLsbD n = (setBit v' i b).getLsbD n := by
  intro n hn
  by_cases hw : n < w
  · rw [getLsbD_setBit v i b hw, getLsbD_setBit v' i b hw]
    by_cases hi : n = i
    · rw [if_pos hi, if_pos hi]
    · rw [if_neg hi, if_neg hi]
      exact h n (by omega)
  · rw [BitVec.getLsbD_of_ge _ _ (by omega), BitVec.getLsbD_of_ge _ _ (by omega)]

theorem ExtractAgree.hdr_eq {s t : State} (h : ExtractAgree s t) (hk : 24 ≤ s.k) : s.hdr = t.hdr :=
  BitVec.eq_of_getLsbD_eq fun i hi => h.hdr i (by omega)

theorem ExtractAgree.lenacc_eq {s t : State} (h : ExtractAgree s t) (hk : 40 ≤ s.k) : s.lenacc = t.lenacc :=
  BitVec.eq_of_getLsbD_eq fun i hi => h.lenacc i (by omega)

/-- What placing a bit shows is that `k` advances. -/
theorem visible_placeBit (b : Bool) (s : State) : (placeBit b s).visible = { s.visible with k := s.k + 1 } := by
  unfold placeBit
  split
  · rfl
  · split <;> rfl

theorem SameVisible.placeBit {s t : State} (h : SameVisible s t) (b : Bool) :
    SameVisible (placeBit b s) (placeBit b t) :=
  h.map (Machine.placeBit b) fun u => by rw [visible_placeBit, visible_placeBit]; rfl

@[simp] theorem placeBit_k (b : Bool) (s : State) : (placeBit b s).k = s.k + 1 :=
  (congrArg State.k (visible_placeBit b s) :)

@[simp] theorem placeBit_phase (b : Bool) (s : State) : (placeBit b s).phase = s.phase :=
  (congrArg State.phase (visible_placeBit b s) :)

/-- After a bit is placed, the placed bits of every field agree; at the end of a payload byte that is the whole byte. -/
theorem placeBit_agree {s t : State} (hv : SameVisible s t) (he : ExtractAgree s t) (b : Bool) :
    ExtractAgree (placeBit b s) (placeBit b t) ∧
      (∀ p, completeByte (s.k + 1) = some p → (placeBit b s).acc = (placeBit b t).acc) := by
  unfold placeBit
  rw [← hv.k]
  by_cases h24 : s.k < 24
  · rw [if_pos h24, if_pos h24]
    refine ⟨{ he with
      hdr := getLsbD_setBit_congr b he.hdr
      lenacc := fun i (hi : i < s.k + 1 - 24) => by omega
      acc := fun i (hi : i < (s.k + 1 - 40) % 8) => by omega }, fun p hp => ?_⟩
    simp [completeByte, show ¬40 < s.k + 1 by omega] at hp
  · have hhdr := he.hdr_eq (by omega)
    rw [if_neg h24, if_neg h24]
    by_cases h40 : s.k < 40
    · have hlenacc := getLsbD_setBit_congr b he.lenacc
      rw [if_pos h40, if_pos h40]
      refine ⟨{ he with
        hdr := fun i _ => congrArg (·.getLsbD i) hhdr
        lenacc := fun i (hi : i < s.k + 1 - 24) => hlenacc i (by omega)
        acc := fun i (hi : i < (s.k + 1 - 40) % 8) => by omega }, fun p hp => ?_⟩
      simp [completeByte, show ¬40 < s.k + 1 by omega] at hp
    · have hlenacc := he.lenacc_eq (by omega)
      have hacc := getLsbD_setBit_congr b he.acc
      rw [if_neg h40, if_neg h40]
      refine ⟨{ he with
        hdr := fun i _ => congrArg (·.getLsbD i) hhdr
        lenacc := fun i _ => congrArg (·.getLsbD i) hlenacc
        acc := fun i (hi : i < (s.k + 1 - 40) % 8) => hacc i (by omega) }, fun p hp => ?_⟩
      have hlast : (s.k + 1 - 40) % 8 = 0 := by
        unfold completeByte at hp
        split at hp
        · next h => exact h.2
        · cases hp
      exact BitVec.eq_of_getLsbD_eq fun i hi => hacc i (by omega)

theorem extractEnd_sameLive {s t : State} (hv : SameVisible s t) (he : ExtractAgree s t) :
    SameLive (extractEnd s) (extractEnd t) := by
  unfold extractEnd
  rw [he.sXM, he.dec]
  exact hv.finish_sameLive _

/-- The acts at a field boundary use whole fields only (41_extract R137). -/
theorem extractAct_sameLive {s t : State} (hv : SameVisible s t) (he : ExtractAgree s t)
    (hacc : ∀ p, completeByte s.k = some p → s.acc = t.acc) (hp : s.phase = .xBits) :
    SameLive (extractAct s) (extractAct t) := by
  have hsame := SameLive.of_extractAgree hv he hp
  unfold extractAct
  refine SameLive.ite (by rw [hv.k]) (fun h24 => ?_) fun _ => SameLive.ite (by rw [hv.k]) (fun h40 => ?_) fun _ => ?_
  · exact SameLive.ite (by rw [he.hdr_eq (by omega), hv.platform]) (fun _ => hv.finish_sameLive _) fun _ => hsame
  · have hlen := he.lenacc_eq (by omega)
    have hv1 : SameVisible { s with decodedLen := s.lenacc } { t with decodedLen := t.lenacc } := by
      rw [hlen]
      exact hv.map (fun u => { u with decodedLen := t.lenacc }) fun _ => rfl
    exact SameLive.ite (by rw [hlen]) (fun _ => hv1.finish_sameLive _) fun _ =>
      .of_extractAgree hv1 { he with } hp
  · have hbyte : completeByte t.k = completeByte s.k := by rw [hv.k]
    rw [hbyte]
    cases hc : completeByte s.k with
    | none => exact hsame
    | some p =>
      have haddr : payAddr t p = payAddr s p := by rw [payAddr, payAddr, he.sPB]
      have hdone : s.k = streamLen s.decodedLen.toNat ↔ t.k = streamLen t.decodedLen.toNat := by
        rw [hv.k, hv.decodedLen]
      have hv1 := hv.map (fun u => { engineWrite u (payAddr s p) s.acc with dec := s.dec ++ [s.acc] }) fun _ => rfl
      dsimp only
      rw [haddr, ← hacc p hc, ← he.dec]
      exact SameLive.ite hdone (fun _ => extractEnd_sameLive hv1 { he with dec := rfl }) fun _ =>
        .of_extractAgree hv1 { he with dec := rfl } hp

/-- Placing a bit and acting on it. -/
theorem extractPlace_sameLive {s t : State} (hv : SameVisible s t) (he : ExtractAgree s t) (b : Bool)
    (hp : s.phase = .xBits) : SameLive (extractAct (placeBit b s)) (extractAct (placeBit b t)) := by
  obtain ⟨he1, hacc⟩ := placeBit_agree hv he b
  exact extractAct_sameLive (hv.placeBit b) he1 (by rwa [placeBit_k]) (by rwa [placeBit_phase])

theorem extractBits_sameLive {s t : State} (hv : SameVisible s t) (he : ExtractAgree s t) (hp : s.phase = .xBits) :
    SameLive (extractBits s) (extractBits t) := by
  have haddr : redAddr t t.k = redAddr s s.k := by rw [redAddr, redAddr, he.sGB, hv.k]
  unfold extractBits
  rw [haddr]
  refine SameLive.ite (by rw [hv.k, he.sN]) (fun _ => ?_) fun _ => ?_
  · dsimp only
    rw [hv.engineRead_value]
    exact extractPlace_sameLive (hv.engineRead _) { he with } _ hp
  · rw [← he.sTM]
    cases s.sTM with
    | error => exact hv.finish_sameLive _
    | zeroFill => exact extractPlace_sameLive hv he false hp

/-! ## A turn of the engine, and a run -/

theorem engineStep_sameLive {s t : State} (h : SameLive s t) : SameLive (engineStep s) (engineStep t) := by
  obtain ⟨hv, hl⟩ := h
  unfold engineStep
  unfold LiveAgree at hl
  rw [← hv.phase]
  cases hp : s.phase with
  | idle => exact ⟨hv, by rw [LiveAgree, hp]; trivial⟩
  | eLen =>
    rw [hp] at hl
    exact embedLen_sameLive hv hl
  | eScan =>
    rw [hp] at hl
    exact embedScan_sameLive hv hl hp
  | eCap =>
    rw [hp] at hl
    exact embedCap_sameLive hv hl
  | eWrite =>
    rw [hp] at hl
    exact embedWrite_sameLive hv hl.1 hl.2 hp
  | xBits =>
    rw [hp] at hl
    exact extractBits_sameLive hv hl hp

/-- The bytes the engine's next step accesses depend on live state only. -/
theorem engineAccesses_congr {s t : State} (h : SameLive s t) : engineAccesses s = engineAccesses t := by
  obtain ⟨hv, hl⟩ := h
  unfold LiveAgree at hl
  unfold engineAccesses
  rw [← hv.phase]
  cases hp : s.phase with
  | idle | eLen | eCap => rfl
  | eScan =>
    rw [hp] at hl
    simp only [payAddr, hl.sPB, hl.sL, hl.j]
  | eWrite =>
    rw [hp] at hl
    obtain ⟨he, -⟩ := hl
    have hpay : payAddr s = payAddr t := by funext p; rw [payAddr, payAddr, he.sPB]
    simp only [hpay, redAddr, embedPayloadRead, he.sGB, hv.k]
  | xBits =>
    rw [hp] at hl
    have hpay : payAddr s = payAddr t := by funext p; rw [payAddr, payAddr, hl.sPB]
    simp only [hpay, redAddr, hl.sGB, hl.sN, hl.sTM, hv.k]

theorem engineTurn_sameLive {s t : State} (h : SameLive s t) : SameLive (engineTurn s) (engineTurn t) := by
  have hstuck : engineStuck s = engineStuck t := by
    unfold engineStuck backed
    rw [engineAccesses_congr h, h.1.platform]
  unfold engineTurn
  exact SameLive.ite (by rw [h.1.rst, hstuck]) (fun _ => h) fun _ => engineStep_sameLive h

theorem runEngine_sameLive (n : Nat) {s t : State} (h : SameLive s t) : SameLive (runEngine n s) (runEngine n t) := by
  induction n generalizing s t with
  | zero => exact h
  | succ n ih => exact ih (engineTurn_sameLive h)

/-- Settles O51: a start makes the states agree on the live hidden state, and every turn of the engine keeps that. -/
theorem hiddenStateDoesNotSurvive : Obligations.HiddenStateDoesNotSurvive := by
  unfold Obligations.HiddenStateDoesNotSurvive
  exact ⟨fun _ => ⟨rfl, rfl, rfl, rfl, rfl⟩, fun _ _ h n =>
    ⟨(runEngine_sameLive n h.startEmbed_sameLive).1, (runEngine_sameLive n h.startExtract_sameLive).1⟩⟩

end Sys2Proof.Machine

/-! PROOFS. The state after reset (spec/10_state.md R50), the register window (R21), and what steps do to the registers and
to the state of a running operation: the latches (R43), CMD_IGNORED (R26) and BITPOS (R35, R44). -/

namespace Sys2Proof.Machine

open Sys2Proof

/-! ## The state after reset -/

theorem reset_blockAtReset : State.reset.BlockAtReset := by
  unfold State.BlockAtReset
  simp [State.reset]

/-- Settles O7: `State.reset` is written with these values, and the reads are of their fields. -/
theorem resetStateHoldsResetValues : Obligations.ResetStateHoldsResetValues := by
  unfold Obligations.ResetStateHoldsResetValues
  exact ⟨reset_blockAtReset, rfl, rfl, rfl, rfl, regRead_magic State.reset⟩

/-- Settles O42: after reset the block is idle, memory and the model's own lists are empty, and the counters are 0. -/
theorem resetStateKeepsTheInvariant : Obligations.ResetStateKeepsTheInvariant := by
  unfold Obligations.ResetStateKeepsTheInvariant State.Inv
  have hidle : State.reset.busy = false := rfl
  have hphase : State.reset.PhaseInv := rfl
  have hrace : State.reset.RaceInv := ⟨List.Pairwise.nil, fun _ hr => absurd hr List.not_mem_nil⟩
  refine ⟨Memory.wf_nil, fun _ hm => absurd hm List.not_mem_nil, ?_, Nat.zero_le _, Nat.zero_le _, Nat.zero_le _,
    fun hb => ?_, hphase, hrace, fun _ => reset_blockAtReset⟩
  · exact Nat.two_pow_pos 64
  · rw [hidle] at hb
    cases hb

/-! ## The register window on the bus -/

theorem regOffset_busAddr (s : State) (off : BitVec 6) : regOffset s (busAddr s off) = some off :=
  (regOffset_eq_some_iff s _ off).2 rfl

theorem regOffset_eq_none {s : State} {addr : Nat} (h : ∀ off : BitVec 6, addr ≠ busAddr s off) :
    regOffset s addr = none :=
  Option.eq_none_iff_forall_ne_some.2 fun off hoff => h off ((regOffset_eq_some_iff s addr off).1 hoff)

/-- Settles O15: the window selects `off` at `REG_BASE + off` and nothing elsewhere, and a bus transaction goes by what is
selected. -/
theorem busAddressSelectsTheWindow : Obligations.BusAddressSelectsTheWindow := by
  unfold Obligations.BusAddressSelectsTheWindow
  intro s
  refine ⟨fun off => ?_, fun addr haddr => ?_⟩
  · have hsel := regOffset_busAddr s off
    exact ⟨rfl, hsel, fun size v => ⟨by simp only [runEvent, hsel], by simp only [runEvent, hsel]⟩⟩
  · have hsel := regOffset_eq_none haddr
    exact ⟨hsel, fun size v => ⟨by simp only [runEvent, hsel], by simp only [runEvent, hsel]⟩⟩

/-! ## What a turn of the engine leaves -/

/-- The state with everything erased that a turn of the engine can change, but DECODED_LEN. -/
def State.outsideEngine (s : State) : State :=
  { s with
    done := false, result := .ok, phase := .idle, k := 0, j := 0, cur := 0, hdr := 0, lenacc := 0, acc := 0, dec := []
    mem := [], races := [], views := [], choices := 0 }

@[simp] theorem finish_outsideEngine (r : Result) (s : State) : (finish r s).outsideEngine = s.outsideEngine := rfl

@[simp] theorem engineRead_outsideEngine (s : State) (a : Addr) :
    (engineRead s a).2.outsideEngine = s.outsideEngine := rfl

theorem embedLen_outsideEngine (s : State) : (embedLen s).outsideEngine = s.outsideEngine := by
  unfold embedLen
  split <;> rfl

theorem embedScan_outsideEngine (s : State) : (embedScan s).outsideEngine = s.outsideEngine := by
  unfold embedScan
  split
  · rfl
  · dsimp only
    split <;> rfl

theorem embedCap_outsideEngine (s : State) : (embedCap s).outsideEngine = s.outsideEngine := by
  unfold embedCap
  split <;> rfl

@[simp] theorem embedFetch_outsideEngine (s : State) : (embedFetch s).outsideEngine = s.outsideEngine := by
  unfold embedFetch
  split <;> rfl

@[simp] theorem embedPut_outsideEngine (s : State) : (embedPut s).outsideEngine = s.outsideEngine := rfl

theorem embedWrite_outsideEngine (s : State) : (embedWrite s).outsideEngine = s.outsideEngine := by
  unfold embedWrite
  dsimp only
  split <;> simp

@[simp] theorem placeBit_outsideEngine (b : Bool) (s : State) : (placeBit b s).outsideEngine = s.outsideEngine := by
  unfold placeBit
  split
  · rfl
  · split <;> rfl

/-- At the end of the length field EXTRACT writes DECODED_LEN (41_extract R142). -/
theorem extractAct_outsideEngine (s : State) :
    (extractAct s).outsideEngine = { s.outsideEngine with decodedLen := (extractAct s).decodedLen } := by
  unfold extractAct
  split
  · split <;> rfl
  · split
    · dsimp only
      split <;> rfl
    · split
      · dsimp only
        split <;> rfl
      · rfl

theorem extractBits_outsideEngine (s : State) :
    (extractBits s).outsideEngine = { s.outsideEngine with decodedLen := (extractBits s).decodedLen } := by
  unfold extractBits
  split
  · dsimp only
    rw [extractAct_outsideEngine, placeBit_outsideEngine, engineRead_outsideEngine]
  · split
    · rfl
    · rw [extractAct_outsideEngine, placeBit_outsideEngine]

/-- The register frame of a step of EMBED (10_state R40). -/
theorem engineStep_outsideEngine_of_not_xBits {s : State} (hp : s.phase ≠ .xBits) :
    (engineStep s).outsideEngine = s.outsideEngine := by
  unfold engineStep
  split
  · rfl
  · exact embedLen_outsideEngine s
  · exact embedScan_outsideEngine s
  · exact embedCap_outsideEngine s
  · exact embedWrite_outsideEngine s
  · next hx => exact absurd hx hp

/-- The register frame of a turn of the engine, the idle, reset and stuck block included (10_state R40). -/
theorem engineTurn_outsideEngine (s : State) :
    (engineTurn s).outsideEngine = { s.outsideEngine with decodedLen := (engineTurn s).decodedLen } := by
  rcases engineTurn_cases s with h | ⟨-, -, -, h⟩ <;> rw [h]
  · rfl
  · by_cases hp : s.phase = .xBits
    · simpa only [engineStep, hp] using extractBits_outsideEngine s
    · have hstep := engineStep_outsideEngine_of_not_xBits hp
      have hlen : (engineStep s).decodedLen = s.decodedLen := (congrArg State.decodedLen hstep :)
      rw [hstep, hlen]
      rfl

theorem engineTurn_decodedLen {s : State} (hp : s.phase ≠ .xBits) : (engineTurn s).decodedLen = s.decodedLen := by
  rcases engineTurn_cases s with h | ⟨-, -, -, h⟩ <;> rw [h]
  exact (congrArg State.decodedLen (engineStep_outsideEngine_of_not_xBits hp) :)

/-- Settles O32: the fields of the statement are among those a turn of the engine leaves. -/
theorem engineTurnRegisterFrame : Obligations.EngineTurnRegisterFrame := by
  unfold Obligations.EngineTurnRegisterFrame
  intro s
  have h := engineTurn_outsideEngine s
  have hlen : s.phase ≠ .xBits → (engineTurn s).decodedLen = s.decodedLen := engineTurn_decodedLen
  simp only [State.outsideEngine, State.mk.injEq] at h
  tauto

/-! ## What a step does to the block -/

/-- The registers and the engine state, everything around the block erased. -/
def State.block (s : State) : State :=
  { s with
    rst := false, mem := [], posted := [], races := [], views := [], lastRead := none, script := [], choices := 0 }

/-- The next event is the write of `v` to the register at `off`, by window offset or by platform address. -/
def WritesRegister (s : State) (off : BitVec 6) (size : AccessSize) (v : Word) (rest : List Event) : Prop :=
  s.script = .regWrite off size v :: rest ∨
    ∃ addr : Nat, regOffset s addr = some off ∧ s.script = .busWrite addr size v :: rest

@[simp] theorem hostRegRead_block (off : BitVec 6) (size : AccessSize) (s : State) :
    (hostRegRead off size s).block = s.block := by
  unfold hostRegRead
  split
  · dsimp only
    split <;> rfl
  · rfl

@[simp] theorem hostMemRead_block (a : Addr) (s : State) : (hostMemRead a s).block = s.block := by
  rw [hostMemRead_frame]
  rfl

theorem ifBacked_block {write : State → State} {s : State} (hw : (write s).block = s.block) (a : Addr) :
    (ifBacked a write s).block = s.block := by
  unfold ifBacked
  split
  · exact hw
  · rfl

@[simp] theorem drainOne_block (s : State) : (drainOne s).block = s.block := by
  unfold drainOne
  split <;> rfl

/-- All a step can do to the block: nothing, a turn of the engine, reset, or a register write of the host (20_memory
R82). -/
theorem step_cases {s t : State} (h : step s = .next t) :
    t.block = s.block ∨
    (∃ u : State, u.block = s.block ∧ t = engineTurn u) ∨
    (s.script.head? = some .rstAssert ∧ t.BlockAtReset) ∨
    ∃ (off : BitVec 6) (size : AccessSize) (v : Word) (rest : List Event),
      WritesRegister s off size v rest ∧ hostRegWrite off size v { s with script := rest } = .next t := by
  unfold step at h
  cases hs : s.script with
  | nil =>
    rw [hs] at h
    cases h
    exact .inr (.inl ⟨s, rfl, rfl⟩)
  | cons e rest =>
    rw [hs] at h
    dsimp only at h
    cases e with
    | regWrite off size v => exact .inr (.inr (.inr ⟨off, size, v, rest, .inl hs, h⟩))
    | busWrite addr size v =>
      simp only [runEvent] at h
      split at h
      · next off hoff => exact .inr (.inr (.inr ⟨off, size, v, rest, .inr ⟨addr, hoff, hs⟩, h⟩))
      · cases h
        exact .inl rfl
    | busRead addr size =>
      simp only [runEvent] at h
      split at h <;> cases h
      · exact .inl (hostRegRead_block _ _ _)
      · exact .inl rfl
    | memWrite a v =>
      cases h
      exact .inl (ifBacked_block (s := { s with script := rest }) rfl a)
    | memPost a v =>
      cases h
      exact .inl (ifBacked_block (s := { s with script := rest }) rfl a)
    | regRead off size =>
      cases h
      exact .inl (hostRegRead_block _ _ _)
    | memRead a =>
      cases h
      exact .inl (hostMemRead_block _ _)
    | drain =>
      cases h
      exact .inl (drainOne_block _)
    | fence | rstRelease =>
      cases h
      exact .inl rfl
    | waitDone =>
      simp only [runEvent] at h
      split at h <;> cases h
      · refine .inr (.inl ⟨_, ?_, rfl⟩)
        exact hostRegRead_block 0x04#6 .word { s with script := rest }
      · exact .inl (hostRegRead_block _ _ _)
    | waitIrq =>
      simp only [runEvent] at h
      split at h <;> cases h
      · exact .inl rfl
      · refine .inr (.inl ⟨_, ?_, rfl⟩)
        rfl
    | engine =>
      cases h
      exact .inr (.inl ⟨{ s with script := rest }, rfl, rfl⟩)
    | rstAssert =>
      cases h
      exact .inr (.inr (.inl ⟨rfl, by simp [State.BlockAtReset, resetBlock]⟩))

/-! ## CMD_IGNORED -/

/-- A register write changes CMD_IGNORED only as a command that starts nothing or as a STATUS write (10_state R26). -/
theorem hostRegWrite_cmdIgnored {off : BitVec 6} {size : AccessSize} {v : Word} {s t : State}
    (h : hostRegWrite off size v s = .next t) :
    t.cmdIgnored = s.cmdIgnored ∨
    (off = 0x00#6 ∧ size = .word ∧ v ≠ 0x00000000#32 ∧ (s.busy = true ∨ legalCommand v = false) ∧
      t.cmdIgnored = true) ∨
    (off = 0x04#6 ∧ size = .word ∧ t.cmdIgnored = (s.cmdIgnored && !v.getLsbD 2)) := by
  rcases hostRegWrite_cases off size v s with
    hw | ⟨-, hsize, ⟨hoff, hw⟩ | ⟨hoff, hw⟩ | ⟨-, hw⟩ | ⟨-, hw⟩ | ⟨-, hw⟩ | ⟨-, hw⟩ | ⟨-, hw⟩ | ⟨-, hw⟩⟩ <;> rw [hw] at h
  case inr.inl =>
    rcases command_cases v s with ⟨-, hc⟩ | ⟨hv, hwhy, hc⟩ | ⟨-, -, hc⟩ | ⟨-, -, hc⟩ <;> rw [hc] at h <;> cases h
    case inr.inl => exact .inr (.inl ⟨hoff, hsize, hv, hwhy, rfl⟩)
    all_goals exact .inl rfl
  case inr.inr.inl =>
    cases h
    exact .inr (.inr ⟨hoff, hsize, rfl⟩)
  all_goals
    cases h
    exact .inl rfl

/-- All that reaches CMD_IGNORED: reset, a command that starts nothing, and a STATUS write (10_state R26). -/
theorem step_cmdIgnored {s t : State} (h : step s = .next t) :
    t.cmdIgnored = s.cmdIgnored ∨
    (s.script.head? = some .rstAssert ∧ t.cmdIgnored = false) ∨
    (∃ (v : Word) (rest : List Event), WritesRegister s 0x00#6 .word v rest ∧ v ≠ 0x00000000#32 ∧
      (s.busy = true ∨ legalCommand v = false) ∧ t.cmdIgnored = true) ∨
    (∃ (v : Word) (rest : List Event), WritesRegister s 0x04#6 .word v rest ∧
      t.cmdIgnored = (s.cmdIgnored && !v.getLsbD 2)) := by
  rcases step_cases h with hblock | ⟨u, hu, rfl⟩ | ⟨hrst, hreset⟩ | ⟨off, size, v, rest, hev, hw⟩
  · exact .inl (congrArg State.cmdIgnored hblock :)
  · have hturn : (engineTurn u).cmdIgnored = u.cmdIgnored := (congrArg State.cmdIgnored (engineTurn_outsideEngine u) :)
    exact .inl (hturn.trans (congrArg State.cmdIgnored hu :))
  · obtain ⟨-, hclear, -⟩ := hreset
    exact .inr (.inl ⟨hrst, hclear⟩)
  · rcases hostRegWrite_cmdIgnored hw with hsame | ⟨rfl, rfl, hv, hwhy, hset⟩ | ⟨rfl, rfl, hclear⟩
    · exact .inl hsame
    · exact .inr (.inr (.inl ⟨v, rest, hev, hv, hwhy, hset⟩))
    · exact .inr (.inr (.inr ⟨v, rest, hev, hclear⟩))

/-- Settles O48: of what reaches CMD_IGNORED, reset and a STATUS write with bit 2 set clear it, and a command sets it. -/
theorem cmdIgnoredIsSticky : Obligations.CmdIgnoredIsSticky := by
  unfold Obligations.CmdIgnoredIsSticky
  refine fun s t h => ⟨fun hs ht => ?_, fun hs ht => ?_⟩ <;>
    rcases step_cmdIgnored h with hsame | ⟨hrst, hreset⟩ | ⟨v, rest, hev, hv, hwhy, hset⟩ | ⟨v, rest, hev, hstatus⟩
  · simp [hsame, hs] at ht
  · exact .inl hrst
  · simp [hset] at ht
  · exact .inr ⟨v, rest, by simpa [hs, ht] using hstatus, hev⟩
  · simp [hsame, hs] at ht
  · simp [hreset] at ht
  · exact ⟨v, rest, hv, hwhy, hev⟩
  · simp [hs, ht] at hstatus

/-! ## A running operation -/

/-- The engine state and RESULT: the block without STATUS's own bits and the registers the host writes. -/
def State.operation (s : State) : State :=
  { s.block with
    done := false, cmdIgnored := false, truncMode := .error, textMode := .utf8, irqEn := false
    width := 0, height := 0, gridBase := 0, payloadBase := 0, payloadLen := 0 }

theorem operation_eq_of_block_eq {s u : State} (h : u.block = s.block) : u.operation = s.operation :=
  (congrArg State.operation h :)

/-- A register write of the host does not reach a running operation (42_host_access R172, R175). -/
theorem hostRegWrite_operation {off : BitVec 6} {size : AccessSize} {v : Word} {s t : State} (hb : s.busy = true)
    (h : hostRegWrite off size v s = .next t) : t.operation = s.operation := by
  rcases hostRegWrite_cases off size v s with
    hw | ⟨-, -, ⟨-, hw⟩ | ⟨-, hw⟩ | ⟨-, hw⟩ | ⟨-, hw⟩ | ⟨-, hw⟩ | ⟨-, hw⟩ | ⟨-, hw⟩ | ⟨-, hw⟩⟩ <;> rw [hw] at h
  case inr.inl =>
    rcases command_cases v s with ⟨-, hc⟩ | ⟨-, -, hc⟩ | ⟨-, hidle, -⟩ | ⟨-, hidle, -⟩
    case inr.inr.inl | inr.inr.inr => simp [hb] at hidle
    all_goals
      rw [hc] at h
      cases h
      rfl
  all_goals
    cases h
    rfl

/-- While an operation runs and `rst` is not asserted, the host and the platform leave it as it is, and then the engine
may take a turn. -/
theorem step_of_busy {s t : State} (h : step s = .next t) (hb : s.busy = true)
    (hrst : s.script.head? ≠ some .rstAssert) :
    ∃ u : State, u.operation = s.operation ∧ (t = u ∨ t = engineTurn u) := by
  rcases step_cases h with hblock | ⟨u, hu, rfl⟩ | ⟨hassert, -⟩ | ⟨off, size, v, rest, -, hw⟩
  · exact ⟨t, operation_eq_of_block_eq hblock, .inl rfl⟩
  · exact ⟨u, operation_eq_of_block_eq hu, .inr rfl⟩
  · exact absurd hassert hrst
  · exact ⟨t, hostRegWrite_operation (s := { s with script := rest }) hb hw, .inl rfl⟩

/-- Settles O47: neither the host nor a turn of the engine writes a latch of a running operation. -/
theorem latchesHoldDuringAnOperation : Obligations.LatchesHoldDuringAnOperation := by
  unfold Obligations.LatchesHoldDuringAnOperation
  intro s t h hb hrst
  obtain ⟨u, hop, ht⟩ := step_of_busy h hb hrst
  have hframe : t.outsideEngine = { u.outsideEngine with decodedLen := t.decodedLen } := by
    rcases ht with rfl | rfl
    · rfl
    · exact engineTurn_outsideEngine u
  simp only [State.operation, State.block, State.outsideEngine, State.mk.injEq] at hop hframe
  simp only [hframe, hop, and_self]

/-! ## BITPOS -/

@[simp] theorem embedLen_k (s : State) : (embedLen s).k = s.k := by
  unfold embedLen
  split <;> rfl

@[simp] theorem embedScan_k (s : State) : (embedScan s).k = s.k := by
  unfold embedScan
  split
  · rfl
  · dsimp only
    split <;> rfl

theorem embedCap_k {s : State} (hk : s.k = 0) : (embedCap s).k = s.k := by
  unfold embedCap
  split
  · rfl
  · exact hk.symm

@[simp] theorem embedWrite_k (s : State) : (embedWrite s).k = s.k + 1 := by
  unfold embedWrite
  dsimp only
  split <;> simp

@[simp] theorem extractAct_k (s : State) : (extractAct s).k = s.k := by
  unfold extractAct
  split
  · split <;> rfl
  · split
    · dsimp only
      split <;> rfl
    · split
      · dsimp only
        split <;> rfl
      · rfl

/-- A step of EXTRACT takes one stream bit, or ends at a grid that has no more (41_extract R137, R138). -/
theorem extractBits_k (s : State) : (extractBits s).k = s.k ∨ (extractBits s).k = s.k + 1 := by
  unfold extractBits
  split
  · simp
  · split <;> simp

/-- Only the steps of the two phases that take stream bits move `k` (10_state R44). -/
theorem engineTurn_k {s : State} (hcap : s.phase = .eCap → s.k = 0) :
    (engineTurn s).k = s.k ∨
      ((s.phase = .eWrite ∨ s.phase = .xBits) ∧ (engineTurn s).k = s.k + 1) := by
  rcases engineTurn_cases s with h | ⟨-, -, -, h⟩ <;> rw [h]
  · exact .inl rfl
  · unfold engineStep
    cases hp : s.phase with
    | idle => exact .inl rfl
    | eLen => exact .inl (embedLen_k s)
    | eScan => exact .inl (embedScan_k s)
    | eCap => exact .inl (embedCap_k (hcap hp))
    | eWrite => exact .inr ⟨.inl rfl, embedWrite_k s⟩
    | xBits => exact (extractBits_k s).imp_right fun hk => ⟨.inr rfl, hk⟩

theorem State.Inv.phaseInv {s : State} (h : s.Inv) : s.PhaseInv := by
  obtain ⟨-, -, -, -, -, -, -, hphase, -⟩ := h
  exact hphase

theorem State.Inv.k_le_maxStream {s : State} (h : s.Inv) : s.k ≤ maxStream := by
  obtain ⟨-, -, -, hk, -⟩ := h
  exact hk

/-- The capacity check finds `k` still 0. -/
theorem State.PhaseInv.k_of_eCap {s : State} (h : s.PhaseInv) (hp : s.phase = .eCap) : s.k = 0 := by
  simp only [State.PhaseInv, hp] at h
  exact h.1

/-- Before a step that takes a stream bit there is one left of the longest stream (30_encoding R87). -/
theorem State.PhaseInv.k_lt_maxStream {s : State} (h : s.PhaseInv) (hp : s.phase = .eWrite ∨ s.phase = .xBits) :
    s.k < maxStream := by
  rcases hp with hp | hp <;> simp only [State.PhaseInv, hp] at h
  · obtain ⟨hL, -, hk, -⟩ := h
    simp only [streamLen, maxStream, Config.maxLen, Config.prefixBits] at hL hk ⊢
    omega
  · obtain ⟨-, -, -, hk⟩ := h
    have hlen := s.decodedLen.isLt
    by_cases h40 : 40 ≤ s.k
    · obtain ⟨-, hk, -⟩ := hk h40
      simp only [streamLen, maxStream, Config.maxLen, Config.prefixBits] at hk ⊢
      omega
    · simp only [streamLen, maxStream, Config.maxLen, Config.prefixBits]
      omega

/-- Settles O49: only a turn of the engine moves `k`, by one, in a phase where the longest stream has a bit left. -/
theorem bitPositionOnlyCountsUp : Obligations.BitPositionOnlyCountsUp := by
  unfold Obligations.BitPositionOnlyCountsUp
  intro s t hinv h hb hrst
  obtain ⟨u, hop, ht⟩ := step_of_busy h hb hrst
  have huk : u.k = s.k := (congrArg State.k hop :)
  have hup : u.phase = s.phase := (congrArg State.phase hop :)
  have hmax : maxStream = 524320 := rfl
  have hle := hinv.k_le_maxStream
  have hstep : (t.k = s.k ∨ t.k = s.k + 1) ∧ t.k ≤ 524320 := by
    rcases ht with rfl | rfl
    · omega
    · rcases engineTurn_k (s := u) fun hp => huk.trans (hinv.phaseInv.k_of_eCap (hup ▸ hp)) with hk | ⟨hp, hk⟩
      · omega
      · have hlt := hinv.phaseInv.k_lt_maxStream (hup ▸ hp)
        omega
  obtain ⟨hk, hbound⟩ := hstep
  refine ⟨hk, hbound, ?_⟩
  show (BitVec.ofNat 32 t.k).toNat = t.k
  rw [BitVec.toNat_ofNat]
  omega

end Sys2Proof.Machine

/-! PROOFS. Every step keeps the invariant of the machine (spec/20_memory.md R60, spec/10_state.md R24 to R48,
spec/70_reset_and_hazards.md R210, R217): the steps of the engine phase by phase, then the accesses of the host, the
register writes, and each event. -/

namespace Sys2Proof.Machine

open Sys2Proof

/-! ## The parts of the invariant -/

/-- The clauses of `State.Inv` on memory and the counters. -/
structure State.Ranges (s : State) : Prop where
  mem_wf : s.mem.wf = true
  views_wf : ∀ m ∈ s.views, Memory.wf m = true
  sN_lt : s.sN < 2 ^ 64
  k_le : s.k ≤ maxStream
  j_le : s.j ≤ Config.maxLen
  dec_le : s.dec.length ≤ Config.maxLen

/-- `State.Inv` with its clauses by name. -/
structure State.InvParts (s : State) : Prop extends s.Ranges where
  of_busy : s.busy = true → s.done = false ∧ s.result = .ok
  phaseInv : s.PhaseInv
  raceInv : s.RaceInv
  of_rst : s.rst = true → s.BlockAtReset

/-- What a running engine keeps between the accesses of one step: the invariant but for the phase's own facts. -/
structure State.Running (s : State) : Prop extends s.Ranges where
  rst : s.rst = false
  done : s.done = false
  result : s.result = .ok
  raceInv : s.RaceInv

theorem State.inv_iff_parts {s : State} : s.Inv ↔ s.InvParts := by
  refine ⟨fun h => ?_, fun h => ?_⟩
  · obtain ⟨hmem, hviews, hsN, hk, hj, hdec, hbusy, hphase, hrace, hrst⟩ := h
    exact ⟨⟨hmem, hviews, hsN, hk, hj, hdec⟩, hbusy, hphase, hrace, hrst⟩
  · exact ⟨h.mem_wf, h.views_wf, h.sN_lt, h.k_le, h.j_le, h.dec_le, h.of_busy, h.phaseInv, h.raceInv, h.of_rst⟩

theorem State.InvParts.running {s : State} (h : s.InvParts) (hb : s.busy = true) (hrst : s.rst = false) :
    s.Running := by
  obtain ⟨hdone, hresult⟩ := h.of_busy hb
  exact { h with rst := hrst, done := hdone, result := hresult }

theorem State.Running.invParts {s : State} (h : s.Running) (hphase : s.PhaseInv) : s.InvParts :=
  { h with
    of_busy := fun _ => ⟨h.done, h.result⟩
    phaseInv := hphase
    of_rst := fun hrst => by simp [h.rst] at hrst }

theorem State.InvParts.races_of_idle {s : State} (h : s.InvParts) (hp : s.phase = .idle) : s.races = [] := by
  simpa only [State.PhaseInv, hp] using h.phaseInv

theorem raceInv_of_no_races {s : State} (h : s.races = []) : s.RaceInv := by
  simp [State.RaceInv, h]

/-! ## The end of an operation -/

theorem settle_mem_wf {s : State} (h : s.mem.wf = true) : (settle s).mem.wf = true := (settle_spec s).2 h

/-- After `Finish` the block is idle without races, so only the ranges are left to keep. -/
theorem State.Running.finish {s : State} (h : s.Running) (r : Result) : (finish r s).InvParts :=
  { h with
    mem_wf := settle_mem_wf h.mem_wf
    views_wf := by
      intro m hm
      rw [finish_views] at hm
      split at hm
      · cases hm
      · exact h.views_wf m hm
    of_busy := fun hb => by simp at hb
    phaseInv := rfl
    raceInv := raceInv_of_no_races rfl
    of_rst := fun hrst => by simp [h.rst] at hrst }

/-- The assertion of `rst` settles the races and puts the block at its reset values (70_reset_and_hazards R210). -/
theorem State.InvParts.rstAssert {s : State} (h : s.InvParts) :
    ({ resetBlock s with rst := true } : State).InvParts where
  mem_wf := settle_mem_wf h.mem_wf
  views_wf := h.views_wf
  sN_lt := Nat.two_pow_pos 64
  k_le := Nat.zero_le _
  j_le := Nat.zero_le _
  dec_le := Nat.zero_le _
  of_busy := fun hb => by simp [resetBlock] at hb
  phaseInv := rfl
  raceInv := raceInv_of_no_races rfl
  of_rst := fun _ => by simp [State.BlockAtReset, resetBlock]

/-! ## Accesses of the engine -/

/-- A race the engine writes keeps its facts: the value written is the last one seen. -/
theorem State.RaceInv.engineWrite {s : State} (h : s.RaceInv) (hwf : s.mem.wf = true) (a : Addr) (v : Byte) :
    (engineWrite s a v).RaceInv := by
  obtain ⟨hdistinct, hfacts⟩ := h
  refine ⟨?_, fun q hq => ?_⟩
  · simpa [List.pairwise_map] using hdistinct
  · obtain ⟨r, hr, rfl⟩ := List.mem_map.1 hq
    obtain ⟨hfoot, hseen, hval⟩ := hfacts r hr
    rw [noteEngineWrite_addr, engineWrite_mem]
    refine ⟨hfoot, ?_⟩
    by_cases ha : r.addr = a
    · subst ha
      simp [noteEngineWrite, Memory.read_write_same _ _ hwf]
    · have hread := Memory.read_write_ne s.mem v (mt BitVec.eq_of_toNat_eq ha)
      simpa only [noteEngineWrite, if_neg ha, hread] using ⟨hseen, hval⟩

theorem State.Running.engineRead {s : State} (h : s.Running) (a : Addr) : (engineRead s a).2.Running :=
  { h with }

theorem State.Running.engineWrite {s : State} (h : s.Running) (a : Addr) (v : Byte) : (engineWrite s a v).Running :=
  { h with mem_wf := engineWrite_mem_wf h.mem_wf a v, raceInv := h.raceInv.engineWrite h.mem_wf a v }

/-! ## The steps of EMBED -/

/-- The phases of EMBED share one footprint (70_reset_and_hazards R219). -/
theorem inFootprint_of_embed {s : State} (hidle : s.phase ≠ .idle) (hx : s.phase ≠ .xBits) (a : Addr) :
    inFootprint s a =
      (decide (s.sL.toNat ≤ Config.maxLen) &&
        (isPayBelow s s.sL.toNat a || isRedBelow s (streamLen s.sL.toNat) a)) := by
  unfold inFootprint
  cases hp : s.phase with
  | idle => exact absurd hp hidle
  | xBits => exact absurd hp hx
  | eLen | eScan | eCap | eWrite => rfl

/-- EMBED goes from one of its phases to another with its races as they are. -/
theorem State.Running.embedPhase {s : State} (h : s.Running) {p : Phase} (hs : s.phase ≠ .idle ∧ s.phase ≠ .xBits)
    (hp : p ≠ .idle ∧ p ≠ .xBits) : ({ s with phase := p } : State).Running := by
  obtain ⟨hdistinct, hfacts⟩ := h.raceInv
  refine { h with raceInv := ⟨hdistinct, fun r hr => ⟨?_, (hfacts r hr).2⟩⟩ }
  rw [inFootprint_of_embed hp.1 hp.2]
  exact (inFootprint_of_embed hs.1 hs.2 r.addr).symm.trans (hfacts r hr).1

theorem embedLen_invParts {s : State} (h : s.Running) (hphase : s.PhaseInv) (hp : s.phase = .eLen) :
    (embedLen s).InvParts := by
  simp only [State.PhaseInv, hp] at hphase
  obtain ⟨hk, hj⟩ := hphase
  unfold embedLen
  split
  · exact h.finish _
  · next hL =>
    exact (h.embedPhase (by simp [hp]) (by simp)).invParts ⟨hk, not_lt.1 hL, hj.le.trans (Nat.zero_le _)⟩

theorem embedScan_invParts {s : State} (h : s.Running) (hphase : s.PhaseInv) (hp : s.phase = .eScan) :
    (embedScan s).InvParts := by
  simp only [State.PhaseInv, hp] at hphase
  obtain ⟨hk, hL, hj⟩ := hphase
  unfold embedScan
  split
  · next hend => exact (h.embedPhase (by simp [hp]) (by simp)).invParts ⟨hk, hL, hend⟩
  · next hmore =>
    have hread := h.engineRead (payAddr s s.j)
    have hj' : s.j + 1 ≤ s.sL.toNat := by omega
    dsimp only
    split
    · exact hread.finish _
    · refine State.Running.invParts { hread with j_le := hj'.trans hL } ?_
      simpa only [State.PhaseInv, engineRead_state_phase, hp] using ⟨hk, hL, hj'⟩

theorem embedCap_invParts {s : State} (h : s.Running) (hphase : s.PhaseInv) (hp : s.phase = .eCap) :
    (embedCap s).InvParts := by
  simp only [State.PhaseInv, hp] at hphase
  obtain ⟨-, hL, hj⟩ := hphase
  unfold embedCap
  split
  · exact h.finish _
  · next hroom =>
    have hnext := h.embedPhase (p := .eWrite) (by simp [hp]) (by simp)
    refine State.Running.invParts { hnext with k_le := Nat.zero_le _ } ⟨hL, hj, ?_, not_lt.1 hroom⟩
    simp [streamLen, Config.prefixBits]

theorem State.Running.embedFetch {s : State} (h : s.Running) : (embedFetch s).Running := by
  unfold Machine.embedFetch
  split
  · next p _ => exact { h.engineRead (payAddr s p) with }
  · exact h

theorem State.Running.embedPut {s : State} (h : s.Running) (hk : s.k + 1 ≤ maxStream) : (embedPut s).Running :=
  { (h.engineRead (redAddr s s.k)).engineWrite (redAddr s s.k) _ with k_le := hk }

@[simp] theorem embedFetch_j (s : State) : (embedFetch s).j = s.j := by
  unfold embedFetch
  split <;> rfl

@[simp] theorem embedFetch_sL (s : State) : (embedFetch s).sL = s.sL :=
  (congrArg State.sL (embedFetch_outsideEngine s) :)

@[simp] theorem embedFetch_sN (s : State) : (embedFetch s).sN = s.sN :=
  (congrArg State.sN (embedFetch_outsideEngine s) :)

@[simp] theorem embedPut_j (s : State) : (embedPut s).j = s.j := rfl

@[simp] theorem embedPut_sL (s : State) : (embedPut s).sL = s.sL := rfl

@[simp] theorem embedPut_sN (s : State) : (embedPut s).sN = s.sN := rfl

theorem embedWrite_invParts {s : State} (h : s.Running) (hphase : s.PhaseInv) (hp : s.phase = .eWrite) :
    (embedWrite s).InvParts := by
  have hkmax := hphase.k_lt_maxStream (.inl hp)
  simp only [State.PhaseInv, hp] at hphase
  obtain ⟨hL, hj, hk, hroom⟩ := hphase
  have hput : (embedPut (embedFetch s)).Running := h.embedFetch.embedPut (by rwa [embedFetch_k])
  unfold embedWrite
  dsimp only
  split
  · exact hput.finish _
  · next hmore =>
    refine hput.invParts ?_
    simp only [embedPut_k, embedFetch_k, embedPut_sL, embedFetch_sL] at hmore
    simp only [State.PhaseInv, embedPut_phase, embedFetch_phase, hp, embedPut_k, embedFetch_k, embedPut_sL,
      embedFetch_sL, embedPut_j, embedFetch_j, embedPut_sN, embedFetch_sN]
    exact ⟨hL, hj, by omega, hroom⟩

/-! ## The step of EXTRACT -/

/-- EXTRACT after a stream bit is placed and before the acts at its field boundaries: a header just complete is not yet
checked, a length just complete not yet in DECODED_LEN, a payload byte just complete not yet in `dec` (41_extract
R137). -/
structure State.BitPlaced (s : State) : Prop where
  phase : s.phase = .xBits
  pixel : s.sTM = .error → s.k ≤ s.sN
  hdr : 24 < s.k → s.hdr = s.platform.magic
  early : s.k ≤ 40 → s.decodedLen = 0 ∧ s.dec = []
  late : 40 < s.k → s.lenacc = s.decodedLen ∧ s.k ≤ streamLen s.decodedLen.toNat ∧ s.dec.length = (s.k - 41) / 8

theorem placeBit_bitPlaced {s : State} (hphase : s.PhaseInv) (hp : s.phase = .xBits)
    (hpixel : s.sTM = .error → s.k < s.sN) (b : Bool) : (placeBit b s).BitPlaced := by
  simp only [State.PhaseInv, hp] at hphase
  obtain ⟨-, hhdr, hearly, hlate⟩ := hphase
  unfold placeBit
  split
  · next h24 =>
    exact ⟨hp, hpixel, fun (hk : 24 < s.k + 1) => by omega, fun _ => hearly (by omega),
      fun (hk : 40 < s.k + 1) => by omega⟩
  · next h24 =>
    split
    · next h40 =>
      exact ⟨hp, hpixel, fun _ => hhdr (by omega), fun _ => hearly h40, fun (hk : 40 < s.k + 1) => by omega⟩
    · next h40 =>
      refine ⟨hp, hpixel, fun _ => hhdr (by omega), fun (hk : s.k + 1 ≤ 40) => by omega, fun _ => ?_⟩
      obtain ⟨hlen, hk, hdec⟩ := hlate (by omega)
      exact ⟨hlen, hk, by simpa using hdec⟩

theorem State.Running.placeBit {s : State} (h : s.Running) (hk : s.k + 1 ≤ maxStream) (b : Bool) :
    (placeBit b s).Running := by
  unfold Machine.placeBit
  split
  · exact { h with k_le := hk }
  · split <;> exact { h with k_le := hk }

/-- What a stream index at the end of a payload byte says: which byte, and where. -/
theorem completeByte_eq_some {k p : Nat} (h : completeByte k = some p) : k = 48 + 8 * p := by
  unfold completeByte at h
  split at h
  · cases h
    omega
  · cases h

theorem completeByte_eq_none {k : Nat} (h : completeByte k = none) (hk : 40 < k) : (k - 40) % 8 ≠ 0 := by
  simpa [completeByte, hk] using h

theorem State.BitPlaced.phaseInv_of_header {s : State} (hs : s.BitPlaced) (hk : s.k = 24)
    (hmagic : s.hdr = s.platform.magic) : s.PhaseInv := by
  simp only [State.PhaseInv, hs.phase]
  exact ⟨hs.pixel, fun _ => hmagic, fun _ => hs.early (by omega), fun hk => by omega⟩

theorem State.BitPlaced.phaseInv_of_length {s : State} (hs : s.BitPlaced) (hk : s.k = 40) (hlen : s.lenacc ≠ 0) :
    ({ s with decodedLen := s.lenacc } : State).PhaseInv := by
  obtain ⟨-, hdec⟩ := hs.early hk.le
  have hpos : s.lenacc.toNat ≠ 0 := fun h0 => hlen (BitVec.eq_of_toNat_eq h0)
  simp only [State.PhaseInv, hs.phase]
  refine ⟨hs.pixel, fun _ => hs.hdr (by omega), fun hk => by omega, fun _ => ⟨trivial, ?_, ?_⟩⟩
  · simp only [streamLen, Config.prefixBits]
    omega
  · simp [hdec, hk]

/-- The state after the payload byte `p` of EXTRACT is written and decoded (41_extract R144). -/
def State.byteDecoded (s : State) (p : Nat) : State :=
  { engineWrite s (payAddr s p) s.acc with dec := s.dec ++ [s.acc] }

theorem State.BitPlaced.phaseInv_of_byte {s : State} (hs : s.BitPlaced) {p : Nat} (hk : s.k = 48 + 8 * p)
    (hmore : s.k ≠ streamLen s.decodedLen.toNat) : (s.byteDecoded p).PhaseInv := by
  obtain ⟨hlen, hT, hdec⟩ := hs.late (by omega)
  have hlt : s.k < streamLen s.decodedLen.toNat := lt_of_le_of_ne hT hmore
  simp only [State.PhaseInv, State.byteDecoded, engineWrite_phase, hs.phase, List.length_append, List.length_singleton]
  exact ⟨hs.pixel, fun _ => hs.hdr (by omega), fun (hk : s.k < 40) => by omega,
    fun _ => ⟨hlen, hlt, show s.dec.length + 1 = (s.k - 40) / 8 by omega⟩⟩

theorem State.BitPlaced.phaseInv_of_none {s : State} (hs : s.BitPlaced) (h24 : s.k ≠ 24) (h40 : s.k ≠ 40)
    (hnone : completeByte s.k = none) : s.PhaseInv := by
  simp only [State.PhaseInv, hs.phase]
  refine ⟨hs.pixel, fun hk => hs.hdr (by omega), fun hk => hs.early (by omega), fun hk => ?_⟩
  have hmid := completeByte_eq_none hnone (by omega)
  obtain ⟨hlen, hT, hdec⟩ := hs.late (by omega)
  simp only [streamLen, Config.prefixBits] at hT ⊢
  exact ⟨hlen, by omega, by omega⟩

theorem State.Running.byteDecoded {s : State} (h : s.Running) (hs : s.BitPlaced) {p : Nat} (hk : s.k = 48 + 8 * p) :
    (s.byteDecoded p).Running := by
  obtain ⟨-, hT, hdec⟩ := hs.late (by omega)
  have hlt := s.decodedLen.isLt
  have hroom : (s.dec ++ [s.acc]).length ≤ Config.maxLen := by
    simp only [streamLen, Config.prefixBits] at hT
    simp only [List.length_append, List.length_singleton, Config.maxLen]
    omega
  exact { h.engineWrite (payAddr s p) s.acc with dec_le := hroom }

/-- The acts at the four kinds of stream index: the header's end, the length's end, a payload byte's end, and none. -/
theorem extractAct_invParts {s : State} (h : s.Running) (hs : s.BitPlaced) : (extractAct s).InvParts := by
  unfold extractAct
  split
  · next h24 =>
    split
    · exact h.finish _
    · next hmagic => exact h.invParts (hs.phaseInv_of_header h24 (not_not.1 hmagic))
  · next h24 =>
    split
    · next h40 =>
      have hset : ({ s with decodedLen := s.lenacc } : State).Running := { h with }
      dsimp only
      split
      · exact hset.finish _
      · next hlen => exact hset.invParts (hs.phaseInv_of_length h40 hlen)
    · next h40 =>
      split
      · next p hbyte =>
        have hk := completeByte_eq_some hbyte
        dsimp only
        split
        · exact (h.byteDecoded hs hk).finish _
        · next hmore => exact (h.byteDecoded hs hk).invParts (hs.phaseInv_of_byte hk hmore)
      · next hnone => exact h.invParts (hs.phaseInv_of_none h24 h40 hnone)

/-- Placing a bit and acting on it, where the grid has the pixel or the mode fills in the bit (41_extract R139). -/
theorem extractPlace_invParts {s : State} (h : s.Running) (hphase : s.PhaseInv) (hp : s.phase = .xBits)
    (hpixel : s.sTM = .error → s.k < s.sN) (b : Bool) : (extractAct (placeBit b s)).InvParts :=
  extractAct_invParts (h.placeBit (hphase.k_lt_maxStream (.inr hp)) b) (placeBit_bitPlaced hphase hp hpixel b)

theorem extractBits_invParts {s : State} (h : s.Running) (hphase : s.PhaseInv) (hp : s.phase = .xBits) :
    (extractBits s).InvParts := by
  unfold extractBits
  split
  · next hk => exact extractPlace_invParts (h.engineRead _) hphase hp (fun _ => hk) _
  · split
    · exact h.finish _
    · next hmode => exact extractPlace_invParts h hphase hp (fun herr => by simp [hmode] at herr) false

/-! ## A turn of the engine -/

theorem State.InvParts.engineTurn {s : State} (h : s.InvParts) : (engineTurn s).InvParts := by
  rcases engineTurn_cases s with heq | ⟨hrst, -, hidle, heq⟩ <;> rw [heq]
  · exact h
  · have hrun := h.running (by simpa using hidle) hrst
    unfold engineStep
    cases hp : s.phase with
    | idle => exact absurd hp hidle
    | eLen => exact embedLen_invParts hrun h.phaseInv hp
    | eScan => exact embedScan_invParts hrun h.phaseInv hp
    | eCap => exact embedCap_invParts hrun h.phaseInv hp
    | eWrite => exact embedWrite_invParts hrun h.phaseInv hp
    | xBits => exact extractBits_invParts hrun h.phaseInv hp

/-! ## Accesses of the host -/

/-- The race a host write of `v` makes at a byte of the footprint that none is at yet (log entry 6). -/
def State.newRace (s : State) (a : Addr) (v : Byte) : Race :=
  { addr := a
    hostVal := v
    engineVal := if engineWrote s a then some (s.mem.read a.toNat) else none
    seen := [s.mem.read a.toNat, v] }

/-- A host write in the footprint is noted by the race at its byte, or makes one there. -/
theorem racesAfterHostWrite_cases (s : State) (a : Addr) (v : Byte) :
    racesAfterHostWrite s a v = s.races.map (noteHostWrite a v) ∨
    ((∀ r ∈ s.races, r.addr ≠ a) ∧ racesAfterHostWrite s a v = s.races ++ [s.newRace a v]) := by
  unfold racesAfterHostWrite
  split
  · exact .inl rfl
  · next h => exact .inr ⟨by simpa using h, rfl⟩

/-- A race a host write is noted in, or passes by, keeps its facts. -/
theorem noteHostWrite_facts {m : Memory} (hwf : m.wf = true) (a : Addr) (v : Byte) {r : Race}
    (hseen : m.read r.addr.toNat ∈ r.seen) (hval : r.engineVal = none → m.read r.addr.toNat = r.hostVal) :
    (m.write a.toNat v).read r.addr.toNat ∈ (noteHostWrite a v r).seen ∧
    ((noteHostWrite a v r).engineVal = none →
      (m.write a.toNat v).read r.addr.toNat = (noteHostWrite a v r).hostVal) := by
  by_cases ha : r.addr = a
  · subst ha
    simp [noteHostWrite, Memory.read_write_same _ _ hwf]
  · have hread := Memory.read_write_ne m v (mt BitVec.eq_of_toNat_eq ha)
    simpa only [noteHostWrite, if_neg ha, hread] using ⟨hseen, hval⟩

theorem State.RaceInv.hostStore {s : State} (h : s.RaceInv) (hwf : s.mem.wf = true) (a : Addr) (v : Byte) :
    (hostStore s a v).RaceInv := by
  obtain ⟨hdistinct, hfacts⟩ := h
  have hold : ∀ r ∈ s.races, r.addr ≠ a → inFootprint s r.addr = true ∧
      (s.mem.write a.toNat v).read r.addr.toNat ∈ r.seen ∧
      (r.engineVal = none → (s.mem.write a.toNat v).read r.addr.toNat = r.hostVal) := by
    intro r hr ha
    rw [Memory.read_write_ne s.mem v (mt BitVec.eq_of_toNat_eq ha)]
    exact hfacts r hr
  have hraces : (Machine.hostStore s a v).races = if inFootprint s a then racesAfterHostWrite s a v else s.races := rfl
  unfold State.RaceInv
  rw [hraces]
  cases hfoot : inFootprint s a
  · refine ⟨hdistinct, fun r hr => hold r hr fun ha => ?_⟩
    have hin := (hfacts r hr).1
    rw [ha, hfoot] at hin
    cases hin
  · rw [if_pos rfl]
    rcases racesAfterHostWrite_cases s a v with heq | ⟨hnew, heq⟩ <;> rw [heq]
    · refine ⟨by simpa [List.pairwise_map] using hdistinct, fun q hq => ?_⟩
      obtain ⟨r, hr, rfl⟩ := List.mem_map.1 hq
      obtain ⟨hin, hseen, hval⟩ := hfacts r hr
      rw [noteHostWrite_addr]
      exact ⟨hin, noteHostWrite_facts hwf a v hseen hval⟩
    · refine ⟨List.pairwise_append.2 ⟨hdistinct, List.pairwise_singleton _ _, ?_⟩, fun q hq => ?_⟩
      · simpa [State.newRace] using hnew
      · rcases List.mem_append.1 hq with hq | hq
        · exact hold q hq (hnew q hq)
        · obtain rfl := List.mem_singleton.1 hq
          have hread : (s.mem.write a.toNat v).read a.toNat = v := Memory.read_write_same _ _ hwf
          exact ⟨hfoot, by simp [State.newRace, hread], fun _ => hread⟩

theorem State.PhaseInv.hostStore {s : State} (h : s.PhaseInv) (a : Addr) (v : Byte) : (hostStore s a v).PhaseInv := by
  cases hp : s.phase with
  | idle =>
    have hout : inFootprint s a = false := by simp [inFootprint, hp]
    simpa only [State.PhaseInv, hostStore_phase, hp, hostStore_races_of_outside hout] using h
  | eLen | eScan | eCap | eWrite | xBits =>
    simp only [State.PhaseInv, hostStore_phase, hp] at h ⊢
    exact h

theorem State.InvParts.hostStore {s : State} (h : s.InvParts) (a : Addr) (v : Byte) : (hostStore s a v).InvParts :=
  { h with
    mem_wf := hostStore_mem_wf h.mem_wf a v
    views_wf := hostStore_views_wf h.views_wf a v
    phaseInv := h.phaseInv.hostStore a v
    raceInv := h.raceInv.hostStore h.mem_wf a v }

/-- From `s` to `t` only what completing host writes can change is changed. -/
def OnlyWritesCompleted (s t : State) : Prop :=
  t = { s with mem := t.mem, posted := t.posted, races := t.races, views := t.views }

theorem OnlyWritesCompleted.hostStore {s t : State} (h : OnlyWritesCompleted s t) (a : Addr) (v : Byte) :
    OnlyWritesCompleted s (hostStore t a v) := by
  unfold OnlyWritesCompleted
  exact congrArg (fun u : State => { u with
    mem := (Machine.hostStore t a v).mem
    posted := t.posted
    races := (Machine.hostStore t a v).races
    views := (Machine.hostStore t a v).views }) h

theorem OnlyWritesCompleted.none_posted {s t : State} (h : OnlyWritesCompleted s t) :
    ({ s with posted := [], mem := t.mem, views := t.views, races := t.races } : State) = { t with posted := [] } :=
  (congrArg (fun u : State => { u with posted := [] }) h).symm

/-- Each issued host write keeps the invariant, and nothing is changed that the last state does not show. -/
theorem State.InvParts.drainAll {s : State} (h : s.InvParts) : (drainAll s).InvParts := by
  have hall : (Machine.drainAll s).InvParts ∧ OnlyWritesCompleted s (Machine.drainAll s) := by
    refine drainAll_induction (P := fun t => t.InvParts ∧ OnlyWritesCompleted s t) s ⟨h, rfl⟩ ?_ ?_
    · exact fun t a v ⟨hinv, hframe⟩ => ⟨hinv.hostStore a v, hframe.hostStore a v⟩
    · rintro t ⟨hinv, hframe⟩
      refine ⟨?_, rfl⟩
      rw [hframe.none_posted]
      exact { hinv with }
  exact hall.1

theorem State.InvParts.drainOne {s : State} (h : s.InvParts) : (drainOne s).InvParts := by
  unfold Machine.drainOne
  split
  · exact h
  · next a v rest _ => exact State.InvParts.hostStore (s := { s with posted := rest }) { h with } a v

theorem State.InvParts.hostMemWrite {s : State} (h : s.InvParts) (a : Addr) (v : Byte) :
    (hostMemWrite a v s).InvParts :=
  h.drainAll.hostStore a v

theorem State.InvParts.hostMemRead {s : State} (h : s.InvParts) (a : Addr) : (hostMemRead a s).InvParts := by
  rw [hostMemRead_frame]
  exact { h with }

theorem State.InvParts.ifBacked {s : State} {write : State → State} (h : s.InvParts) (hw : (write s).InvParts)
    (a : Addr) : (ifBacked a write s).InvParts := by
  unfold Machine.ifBacked
  split
  · exact hw
  · exact h

/-! ## Register accesses -/

/-- What the host reads of the block, and whether it sees the completion, is not in the invariant but for the views. -/
theorem State.InvParts.hostRegRead {s : State} (h : s.InvParts) (off : BitVec 6) (size : AccessSize) :
    (hostRegRead off size s).InvParts := by
  unfold Machine.hostRegRead
  split
  · dsimp only
    split
    · exact { h with views_wf := fun _ hm => absurd hm List.not_mem_nil }
    · exact { h with }
  · exact { h with }

theorem pixelCount_lt (s : State) : pixelCount s < 2 ^ 64 := by
  calc pixelCount s < 2 ^ 32 * 2 ^ 32 := Nat.mul_lt_mul'' s.width.isLt s.height.isLt
    _ = 2 ^ 64 := by rw [← Nat.pow_add]

/-- The memory of the moment of a start is one more that the host may see (log entry 7). -/
theorem State.Ranges.views_append_mem_wf {s : State} (h : s.Ranges) : ∀ m ∈ s.views ++ [s.mem], Memory.wf m = true := by
  intro m hm
  rcases List.mem_append.1 hm with hm | hm
  · exact h.views_wf m hm
  · rw [List.mem_singleton.1 hm]
    exact h.mem_wf

theorem State.InvParts.startEmbed {s : State} (h : s.InvParts) (hrst : s.rst = false) (hidle : s.phase = .idle) :
    (startEmbed s).InvParts :=
  { h with
    views_wf := h.views_append_mem_wf
    sN_lt := pixelCount_lt s
    k_le := Nat.zero_le _
    j_le := Nat.zero_le _
    of_busy := fun _ => ⟨rfl, rfl⟩
    phaseInv := ⟨rfl, rfl⟩
    raceInv := raceInv_of_no_races (h.races_of_idle hidle)
    of_rst := fun (hr : s.rst = true) => by simp [hrst] at hr }

theorem State.InvParts.startExtract {s : State} (h : s.InvParts) (hrst : s.rst = false) (hidle : s.phase = .idle) :
    (startExtract s).InvParts :=
  { h with
    views_wf := h.views_append_mem_wf
    sN_lt := pixelCount_lt s
    k_le := Nat.zero_le _
    j_le := Nat.zero_le _
    dec_le := Nat.zero_le _
    of_busy := fun _ => ⟨rfl, rfl⟩
    phaseInv := ⟨fun _ => Nat.zero_le _, fun (hk : 24 ≤ 0) => by omega, fun _ => ⟨rfl, rfl⟩,
      fun (hk : 40 ≤ 0) => by omega⟩
    raceInv := raceInv_of_no_races (h.races_of_idle hidle)
    of_rst := fun (hr : s.rst = true) => by simp [hrst] at hr }

theorem State.InvParts.command {w : Word} {s t : State} (h : s.InvParts) (hrst : s.rst = false)
    (hc : command w s = .next t) : t.InvParts := by
  rcases command_cases w s with ⟨-, heq⟩ | ⟨-, -, heq⟩ | ⟨-, hidle, heq⟩ | ⟨-, hidle, heq⟩ <;> rw [heq] at hc <;>
    cases hc
  · exact h
  · exact { h with of_rst := fun (hr : s.rst = true) => by simp [hrst] at hr }
  · exact h.startEmbed hrst (s.busy_eq_false.1 hidle)
  · exact h.startExtract hrst (s.busy_eq_false.1 hidle)

theorem State.InvParts.writeConfig {s : State} (h : s.InvParts) (hrst : s.rst = false) (v : Word) :
    (writeConfig v s).InvParts :=
  { h with
    views_wf := by
      intro m hm
      rw [Machine.writeConfig, hostSeesIrq_views] at hm
      split at hm
      · cases hm
      · exact h.views_wf m hm
    of_rst := fun (hr : s.rst = true) => by simp [hrst] at hr }

theorem State.InvParts.hostRegWrite {off : BitVec 6} {size : AccessSize} {v : Word} {s t : State} (h : s.InvParts)
    (hw : hostRegWrite off size v s = .next t) : t.InvParts := by
  rcases hostRegWrite_cases off size v s with
    heq | ⟨hrst, -, ⟨-, heq⟩ | ⟨-, heq⟩ | ⟨-, heq⟩ | ⟨-, heq⟩ | ⟨-, heq⟩ | ⟨-, heq⟩ | ⟨-, heq⟩ | ⟨-, heq⟩⟩ <;>
    rw [heq] at hw
  case inr.inl => exact h.command hrst hw
  all_goals cases hw
  case inl => exact h
  case inr.inr.inl =>
    exact { h with
      of_busy := fun hb => by
        obtain ⟨hdone, hresult⟩ := h.of_busy hb
        exact ⟨by simp [hdone], hresult⟩
      of_rst := fun (hr : s.rst = true) => by simp [hrst] at hr }
  case inr.inr.inr.inl => exact h.writeConfig hrst v
  all_goals exact { h with of_rst := fun (hr : s.rst = true) => by simp [hrst] at hr }

/-! ## One event, one step -/

theorem State.InvParts.runEvent {e : Event} {s t : State} (h : s.InvParts) (he : runEvent e s = .next t) :
    t.InvParts := by
  cases e with
  | regWrite off size v => exact h.hostRegWrite he
  | busRead addr size =>
    simp only [Machine.runEvent] at he
    split at he <;> cases he
    · exact h.hostRegRead _ _
    · exact { h with }
  | busWrite addr size v =>
    simp only [Machine.runEvent] at he
    split at he
    · exact h.hostRegWrite he
    · cases he
      exact h
  | waitDone =>
    simp only [Machine.runEvent] at he
    split at he <;> cases he
    · exact State.InvParts.engineTurn { h.hostRegRead 0x04#6 .word with }
    · exact h.hostRegRead _ _
  | waitIrq =>
    simp only [Machine.runEvent] at he
    split at he <;> cases he
    · exact h
    · exact State.InvParts.engineTurn { h with }
  | regRead off size =>
    cases he
    exact h.hostRegRead off size
  | memRead a =>
    cases he
    exact h.hostMemRead a
  | memWrite a v =>
    cases he
    exact h.ifBacked (h.hostMemWrite a v) a
  | memPost a v =>
    cases he
    exact h.ifBacked (write := hostMemPost a v) { h with } a
  | drain =>
    cases he
    exact h.drainOne
  | fence =>
    cases he
    exact h.drainAll
  | engine =>
    cases he
    exact h.engineTurn
  | rstAssert =>
    cases he
    exact h.rstAssert
  | rstRelease =>
    cases he
    exact { h with of_rst := fun (hr : false = true) => by cases hr }

theorem State.InvParts.step {s t : State} (h : s.InvParts) (hs : step s = .next t) : t.InvParts := by
  unfold Machine.step at hs
  split at hs
  · cases hs
    exact h.engineTurn
  · next e rest _ => exact State.InvParts.runEvent (s := { s with script := rest }) { h with } hs

/-- Settles O43: a turn of the engine, each of the host's and the platform's events, and `rst` keep the invariant. -/
theorem everyStepKeepsTheInvariant : Obligations.EveryStepKeepsTheInvariant := by
  unfold Obligations.EveryStepKeepsTheInvariant
  exact fun s t hinv hs => State.inv_iff_parts.2 ((State.inv_iff_parts.1 hinv).step hs)

end Sys2Proof.Machine

/-! PROOFS. The shared memory (spec/20_memory.md): its canonical form (R60, R70), the addresses of the engine (R63, R64),
its footprint and memory frame (R65, R73), what engine and host see of each other's writes (R75 to R77), and what starts
an operation (R80). -/

namespace Sys2Proof.Machine

open Sys2Proof

/-! ## The memory laws -/

theorem Memory.wfFrom_cons {lo a : Nat} {v : Byte} {m : Memory} :
    Memory.wfFrom lo ((a, v) :: m) = true ↔
      lo ≤ a ∧ a < 2 ^ 32 ∧ v ≠ unlistedByte ∧ Memory.wfFrom (a + 1) m = true := by
  simp [Memory.wfFrom, and_assoc]

@[simp] theorem Memory.read_cons_self (a : Nat) (v : Byte) (m : Memory) : Memory.read ((a, v) :: m) a = v :=
  if_pos rfl

theorem Memory.read_cons_ne {a b : Nat} (h : b ≠ a) (v : Byte) (m : Memory) :
    Memory.read ((a, v) :: m) b = Memory.read m b :=
  if_neg h.symm

/-- What a canonical list gives a value to stands at or above its bound. -/
theorem Memory.le_of_read_ne {lo a : Nat} {m : Memory} (hm : Memory.wfFrom lo m = true)
    (h : Memory.read m a ≠ unlistedByte) : lo ≤ a :=
  not_lt.1 fun hlt => h (Memory.read_below hlt hm)

/-- Two canonical lists that read the same are the same: each lists the first address of the other, so the heads agree,
and below the tails both read as unlisted. -/
theorem Memory.eq_of_read_eq {lo : Nat} : ∀ {m n : Memory}, Memory.wfFrom lo m = true → Memory.wfFrom lo n = true →
    (∀ a, Memory.read m a = Memory.read n a) → m = n := by
  intro m
  induction m generalizing lo with
  | nil =>
    intro n _ hn h
    cases n with
    | nil => rfl
    | cons c n =>
      obtain ⟨b, w⟩ := c
      obtain ⟨-, -, hw, -⟩ := Memory.wfFrom_cons.1 hn
      exact absurd (by simpa using (h b).symm) hw
  | cons c m ih =>
    obtain ⟨a, v⟩ := c
    intro n hm hn h
    obtain ⟨hlo, ha, hv, hm⟩ := Memory.wfFrom_cons.1 hm
    cases n with
    | nil => exact absurd (by simpa using h a) hv
    | cons d n =>
      obtain ⟨b, w⟩ := d
      obtain ⟨-, hb, hw, hn⟩ := Memory.wfFrom_cons.1 hn
      have hba : b ≤ a :=
        Memory.le_of_read_ne (Memory.wfFrom_cons.2 ⟨le_rfl, hb, hw, hn⟩) (by simpa [← h a] using hv)
      have hab : a ≤ b :=
        Memory.le_of_read_ne (Memory.wfFrom_cons.2 ⟨le_rfl, ha, hv, hm⟩) (by simpa [h b] using hw)
      obtain rfl := le_antisymm hab hba
      have hvw : v = w := by simpa using h a
      have htail : m = n := by
        refine ih hm hn fun x => ?_
        by_cases hx : x = a
        · rw [hx, Memory.read_below (Nat.lt_succ_self a) hm, Memory.read_below (Nat.lt_succ_self a) hn]
        · simpa only [Memory.read_cons_ne hx] using h x
      rw [hvw, htail]

/-- Settles O30: the laws of a write in the canonical form, and the form is unique. -/
theorem memoryReadsWhatWasWritten : Obligations.MemoryReadsWhatWasWritten := by
  unfold Obligations.MemoryReadsWhatWasWritten
  exact ⟨fun m a b v hm ha => ⟨Memory.read_write_same a v hm, fun hb => Memory.read_write_ne m v hb,
    Memory.wfFrom_write v (Nat.zero_le a) ha hm⟩, fun m n hm hn h => Memory.eq_of_read_eq hm hn h⟩

/-! ## The addresses of the engine -/

theorem redAddrAt_toNat (base : Addr) (p : Nat) : (redAddrAt base p).toNat = (base.toNat + 3 * p) % 2 ^ 32 := by
  rw [redAddrAt, BitVec.toNat_add, BitVec.toNat_ofNat, Config.pixelStride, Nat.add_mod_mod]

theorem payAddrAt_toNat (base : Addr) (i : Nat) : (payAddrAt base i).toNat = (base.toNat + i) % 2 ^ 32 := by
  rw [payAddrAt, BitVec.toNat_add, BitVec.toNat_ofNat, Nat.add_mod_mod]

theorem redAddrAt_sub_base (base : Addr) {p : Nat} (hp : 3 * p < 2 ^ 32) : (redAddrAt base p - base).toNat = 3 * p := by
  rw [redAddrAt, add_sub_cancel_left, BitVec.toNat_ofNat, Config.pixelStride, Nat.mod_eq_of_lt hp]

theorem payAddrAt_sub_base (base : Addr) {i : Nat} (hi : i < 2 ^ 32) : (payAddrAt base i - base).toNat = i := by
  rw [payAddrAt, add_sub_cancel_left, BitVec.toNat_ofNat, Nat.mod_eq_of_lt hi]

/-- Settles O25: the sums wrap as bit vectors do, and the distance from the base tells the index. -/
theorem engineAddressesWrapAndAreDistinct : Obligations.EngineAddressesWrapAndAreDistinct := by
  unfold Obligations.EngineAddressesWrapAndAreDistinct
  refine ⟨redAddrAt_toNat, payAddrAt_toNat, fun base p q hp hq h => ?_, fun base i n hi hn h => ?_⟩
  · have hdist : 3 * p = 3 * q := by
      rw [← redAddrAt_sub_base base (p := p) (by omega), h, redAddrAt_sub_base base (by omega)]
    omega
  · rw [← payAddrAt_sub_base base (i := i) (by omega), h, payAddrAt_sub_base base (by omega)]

/-! ## The footprint -/

theorem isRedBelow_redAddr (s : State) {p n : Nat} (hpn : p < n) (hp : 3 * p < 2 ^ 32) :
    isRedBelow s n (redAddr s p) = true := by
  simp [isRedBelow, redAddr, redAddrAt_sub_base s.sGB hp, Config.pixelStride, hpn]

theorem isPayBelow_payAddr (s : State) {i n : Nat} (hin : i < n) (hi : i < 2 ^ 32) :
    isPayBelow s n (payAddr s i) = true := by
  simp [isPayBelow, payAddr, payAddrAt_sub_base s.sPB hi, hin]

theorem embedPayloadRead_eq_some {s : State} {p : Nat} (h : embedPayloadRead s = some p) : s.k = 40 + 8 * p := by
  unfold embedPayloadRead at h
  split at h
  · cases h
    omega
  · cases h

theorem inFootprint_payAddr_of_embed {s : State} (hidle : s.phase ≠ .idle) (hx : s.phase ≠ .xBits)
    (hL : s.sL.toNat ≤ Config.maxLen) {i : Nat} (hi : i < s.sL.toNat) : inFootprint s (payAddr s i) = true := by
  simp [inFootprint_of_embed hidle hx, hL, isPayBelow_payAddr s hi (by omega)]

theorem inFootprint_redAddr_of_embed {s : State} (hidle : s.phase ≠ .idle) (hx : s.phase ≠ .xBits)
    (hL : s.sL.toNat ≤ Config.maxLen) {p : Nat} (hp : p < streamLen s.sL.toNat) :
    inFootprint s (redAddr s p) = true := by
  have hfit : 3 * p < 2 ^ 32 := by
    simp only [streamLen, Config.prefixBits, Config.maxLen] at hL hp
    omega
  simp [inFootprint_of_embed hidle hx, hL, isRedBelow_redAddr s hp hfit]

theorem inFootprint_payAddr_of_extract {s : State} (hx : s.phase = .xBits) {i : Nat} (hi : i < Config.maxLen) :
    inFootprint s (payAddr s i) = true := by
  have hfit : i < 2 ^ 32 := hi.trans (by decide)
  simp [inFootprint, hx, isPayBelow_payAddr s hi hfit]

theorem inFootprint_redAddr_of_extract {s : State} (hx : s.phase = .xBits) {p : Nat} (hN : p < s.sN)
    (hmax : p < maxStream) : inFootprint s (redAddr s p) = true := by
  have hfit : 3 * p < 2 ^ 32 := by
    simp only [maxStream, streamLen, Config.prefixBits, Config.maxLen] at hmax
    omega
  simp [inFootprint, hx, isRedBelow_redAddr s (lt_min hN hmax) hfit]

/-- The payload byte a step of EXTRACT completes is one of the longest payload. -/
theorem inFootprint_completed_of_extract {s : State} (hx : s.phase = .xBits) (hk : s.k < maxStream) {a : Addr}
    (ha : a ∈ (completeByte (s.k + 1)).toList.map (payAddr s)) : inFootprint s a = true := by
  obtain ⟨p, hp, rfl⟩ := List.mem_map.1 ha
  have hbyte := completeByte_eq_some (Option.mem_toList.1 hp)
  refine inFootprint_payAddr_of_extract hx ?_
  simp only [maxStream, streamLen, Config.prefixBits] at hk
  omega

/-- The bytes the engine's next step accesses are in the footprint (70_reset_and_hazards R219). -/
theorem inFootprint_of_mem_engineAccesses {s : State} (h : s.PhaseInv) {a : Addr} (ha : a ∈ engineAccesses s) :
    inFootprint s a = true := by
  cases hp : s.phase with
  | idle | eLen | eCap => simp [engineAccesses, hp] at ha
  | eScan =>
    simp only [State.PhaseInv, hp] at h
    simp only [engineAccesses, hp] at ha
    obtain ⟨-, hL, hj⟩ := h
    split at ha
    · cases ha
    · next hmore =>
      rw [List.mem_singleton.1 ha]
      exact inFootprint_payAddr_of_embed (by simp [hp]) (by simp [hp]) hL (by omega)
  | eWrite =>
    simp only [State.PhaseInv, hp] at h
    simp only [engineAccesses, hp] at ha
    obtain ⟨hL, -, hk, -⟩ := h
    rcases List.mem_append.1 ha with ha | ha
    · obtain ⟨i, hi, rfl⟩ := List.mem_map.1 ha
      have hbyte := embedPayloadRead_eq_some (Option.mem_toList.1 hi)
      simp only [streamLen, Config.prefixBits] at hk
      exact inFootprint_payAddr_of_embed (by simp [hp]) (by simp [hp]) hL (by omega)
    · rw [List.mem_singleton.1 ha]
      exact inFootprint_redAddr_of_embed (by simp [hp]) (by simp [hp]) hL hk
  | xBits =>
    have hk := h.k_lt_maxStream (.inr hp)
    simp only [engineAccesses, hp] at ha
    split at ha
    · next hN =>
      rcases List.mem_cons.1 ha with rfl | ha
      · exact inFootprint_redAddr_of_extract hp hN hk
      · exact inFootprint_completed_of_extract hp hk ha
    · split at ha
      · cases ha
      · exact inFootprint_completed_of_extract hp hk ha

/-- Settles O34: the invariant of the phase bounds the indices of the accesses, and a stuck engine has an access that is
not backed. -/
theorem engineStaysInItsFootprint : Obligations.EngineStaysInItsFootprint := by
  unfold Obligations.EngineStaysInItsFootprint
  intro s hinv
  have hfoot : ∀ a ∈ engineAccesses s, inFootprint s a = true := fun a ha =>
    inFootprint_of_mem_engineAccesses hinv.phaseInv ha
  refine ⟨hfoot, fun hbacked => ?_⟩
  simpa [engineStuck] using fun a ha => hbacked a (hfoot a ha)

/-! ## The memory frame of a turn of the engine -/

/-- No race concerns the byte at `a`. -/
def State.NoRaceAt (s : State) (a : Addr) : Prop := ∀ r ∈ s.races, r.addr ≠ a

/-- From `s` to `t` the byte at `a` reads the same, and no race comes to it. -/
def KeepsByte (a : Addr) (s t : State) : Prop :=
  t.mem.read a.toNat = s.mem.read a.toNat ∧ (s.NoRaceAt a → t.NoRaceAt a)

theorem finish_read_of_noRaceAt {s : State} {a : Addr} (h : s.NoRaceAt a) (r : Result) :
    (finish r s).mem.read a.toNat = s.mem.read a.toNat :=
  (settle_spec s).1 a.toNat fun q hq haddr => h q hq (BitVec.eq_of_toNat_eq haddr)

theorem engineWrite_keepsByte {a b : Addr} (h : a ≠ b) (s : State) (v : Byte) : KeepsByte a s (engineWrite s b v) := by
  refine ⟨Memory.read_write_ne s.mem v (mt BitVec.eq_of_toNat_eq h), fun hno q hq => ?_⟩
  obtain ⟨r, hr, rfl⟩ := List.mem_map.1 hq
  rw [noteEngineWrite_addr]
  exact hno r hr

/-- A byte kept through the accesses of a step is kept at its end, which may be `Finish`. -/
theorem KeepsByte.read_finish {a : Addr} {s t : State} (h : KeepsByte a s t) (hno : s.NoRaceAt a) (r : Result) :
    (finish r t).mem.read a.toNat = s.mem.read a.toNat :=
  (finish_read_of_noRaceAt (h.2 hno) r).trans h.1

theorem embedLen_read {s : State} {a : Addr} (hno : s.NoRaceAt a) :
    (embedLen s).mem.read a.toNat = s.mem.read a.toNat := by
  unfold embedLen
  split
  · exact finish_read_of_noRaceAt hno _
  · rfl

theorem embedScan_read {s : State} {a : Addr} (hno : s.NoRaceAt a) :
    (embedScan s).mem.read a.toNat = s.mem.read a.toNat := by
  unfold embedScan
  split
  · rfl
  · dsimp only
    split
    · exact finish_read_of_noRaceAt (s := (engineRead s (payAddr s s.j)).2) hno _
    · rfl

theorem embedCap_read {s : State} {a : Addr} (hno : s.NoRaceAt a) :
    (embedCap s).mem.read a.toNat = s.mem.read a.toNat := by
  unfold embedCap
  split
  · exact finish_read_of_noRaceAt hno _
  · rfl

theorem embedFetch_keepsByte (a : Addr) (s : State) : KeepsByte a s (embedFetch s) := by
  unfold embedFetch
  split <;> exact ⟨rfl, id⟩

theorem embedPut_keepsByte {a : Addr} {s : State} (h : a ≠ redAddr s s.k) : KeepsByte a s (embedPut s) :=
  engineWrite_keepsByte h (engineRead s (redAddr s s.k)).2 _

@[simp] theorem embedFetch_redAddr (s : State) (p : Nat) : redAddr (embedFetch s) p = redAddr s p :=
  (congrArg (redAddr · p) (embedFetch_outsideEngine s) :)

theorem embedWrite_read {s : State} {a : Addr} (hno : s.NoRaceAt a) (h : a ≠ redAddr s s.k) :
    (embedWrite s).mem.read a.toNat = s.mem.read a.toNat := by
  have hfetch := embedFetch_keepsByte a s
  have hput := embedPut_keepsByte (s := embedFetch s) (a := a) (by simpa using h)
  have hkeep : KeepsByte a s (embedPut (embedFetch s)) := ⟨hput.1.trans hfetch.1, fun hno => hput.2 (hfetch.2 hno)⟩
  unfold embedWrite
  dsimp only
  split
  · exact hkeep.read_finish hno _
  · exact hkeep.1

theorem extractAct_read {s : State} {a : Addr} (hno : s.NoRaceAt a)
    (h : ∀ p, completeByte s.k = some p → a ≠ payAddr s p) :
    (extractAct s).mem.read a.toNat = s.mem.read a.toNat := by
  unfold extractAct
  split
  · split
    · exact finish_read_of_noRaceAt hno _
    · rfl
  · split
    · dsimp only
      split
      · exact finish_read_of_noRaceAt (s := { s with decodedLen := s.lenacc }) hno _
      · rfl
    · split
      · next p hp =>
        have hkeep : KeepsByte a s (s.byteDecoded p) :=
          engineWrite_keepsByte (h p hp) s s.acc
        dsimp only
        split
        · exact hkeep.read_finish hno _
        · exact hkeep.1
      · rfl

/-- Placing a bit keeps every byte, the races, and the addresses. -/
theorem placeBit_frame (b : Bool) (s : State) :
    (placeBit b s).mem = s.mem ∧ (placeBit b s).races = s.races ∧ (placeBit b s).sPB = s.sPB := by
  unfold placeBit
  split
  · exact ⟨rfl, rfl, rfl⟩
  · split <;> exact ⟨rfl, rfl, rfl⟩

theorem extractPlace_read {s : State} {a : Addr} (hno : s.NoRaceAt a)
    (h : a ∉ (completeByte (s.k + 1)).toList.map (payAddr s)) (b : Bool) :
    (extractAct (placeBit b s)).mem.read a.toNat = s.mem.read a.toNat := by
  obtain ⟨hmem, hraces, hpb⟩ := placeBit_frame b s
  have hno' : (placeBit b s).NoRaceAt a := by rwa [State.NoRaceAt, hraces]
  rw [extractAct_read hno' fun p hp ha => h ?_, hmem]
  rw [placeBit_k] at hp
  exact List.mem_map.2 ⟨p, Option.mem_toList.2 hp, by rw [ha, payAddr, payAddr, hpb]⟩

theorem extractBits_read {s : State} {a : Addr} (hp : s.phase = .xBits) (hno : s.NoRaceAt a)
    (h : a ∉ engineAccesses s) : (extractBits s).mem.read a.toNat = s.mem.read a.toNat := by
  simp only [engineAccesses, hp] at h
  unfold extractBits
  split
  · next hN =>
    rw [if_pos hN, List.mem_cons, not_or] at h
    exact extractPlace_read (s := (engineRead s (redAddr s s.k)).2) hno h.2 _
  · next hN =>
    rw [if_neg hN] at h
    cases hm : s.sTM with
    | error => exact finish_read_of_noRaceAt hno _
    | zeroFill =>
      rw [hm] at h
      exact extractPlace_read hno h false

/-- Settles O31: each step reads and writes at its accesses, and `Finish` writes raced bytes only. -/
theorem engineTurnMemoryFrame : Obligations.EngineTurnMemoryFrame := by
  unfold Obligations.EngineTurnMemoryFrame
  intro s a ha hno
  rcases engineTurn_cases s with heq | ⟨-, -, -, heq⟩ <;> rw [heq]
  unfold engineStep
  cases hp : s.phase with
  | idle => rfl
  | eLen => exact embedLen_read hno
  | eScan => exact embedScan_read hno
  | eCap => exact embedCap_read hno
  | eWrite => exact embedWrite_read hno fun hred => ha (by simp [engineAccesses, hp, hred])
  | xBits => exact extractBits_read hp hno ha

/-! ## Visibility -/

/-- Settles O35: with nothing raced or posted there is nothing to choose from, and a choice gives one of the values and
moves the free value's counter only. -/
theorem engineReadGivesAnAllowedValue : Obligations.EngineReadGivesAnAllowedValue := by
  unfold Obligations.EngineReadGivesAnAllowedValue
  exact fun s a => ⟨engineRead_of_no_race, chosen_mem s _ _, rfl⟩

/-- On an idle block without older memories a host read gives the byte of memory (20_memory R77). -/
theorem hostLoad_of_seen {s : State} {a : Addr} (hidle : s.phase = .idle) (hviews : s.views = [])
    (hposted : postedVals s a = []) : hostLoad s a = (s.mem.read a.toNat, s) := by
  have hwrote : engineWrote s a = false := by simp [engineWrote, hidle]
  simp [hostLoad, hposted, hviews, hwrote]

theorem hostRegRead_status {s : State} (hidle : s.busy = false) :
    hostRegRead 0x04#6 .word s = hostSees { s with lastRead := some (statusWord s) } := by
  simp [hostRegRead, legalAccess, hidle, regRead]

theorem regWrite_config (v : Word) (s : State) : regWrite 0x0C#6 v s = .next (writeConfig v s) := rfl

/-- Settles O38: at each of the three points the block is idle and the older memories are dropped. -/
theorem hostSeesEngineWritesAfterCompletion : Obligations.HostSeesEngineWritesAfterCompletion := by
  unfold Obligations.HostSeesEngineWritesAfterCompletion
  refine ⟨fun s a hidle hposted => ?_, fun s r a hirq hposted => ?_, fun s v a hinv hdone hen hposted => ?_⟩
  · rw [hostRegRead_status hidle]
    exact ⟨rfl, hostLoad_of_seen (s.busy_eq_false.1 hidle) rfl hposted⟩
  · refine hostLoad_of_seen rfl ?_ hposted
    rw [finish_views, if_pos (by simpa using hirq)]
  · have hidle : s.busy = false := by
      by_contra hbusy
      have hrunning := (State.inv_iff_parts.1 hinv).of_busy (by simpa using hbusy)
      simp [hdone] at hrunning
    have hirq : (writeConfig v s).irq = true := by simp [writeConfig, State.irq, hdone, hen]
    have hviews : (writeConfig v s).views = [] := if_pos hirq
    exact ⟨writeConfig v s, regWrite_config v s, hirq, rfl, hostLoad_of_seen (s.busy_eq_false.1 hidle) hviews hposted⟩

/-- Settles O40: a completed write leaves the invariant, nothing outstanding and, the block being idle, no race, so that
after a start the read has one value. -/
theorem completedHostWriteIsSeenByTheEngine : Obligations.CompletedHostWriteIsSeenByTheEngine := by
  unfold Obligations.CompletedHostWriteIsSeenByTheEngine
  intro s a v hinv hidle
  have hwrite := (State.inv_iff_parts.1 hinv).hostMemWrite a v
  have hraces : (hostMemWrite a v s).races = [] := hwrite.races_of_idle (s.busy_eq_false.1 hidle)
  have hposted : (hostMemWrite a v s).posted = [] := rfl
  have hread : (hostMemWrite a v s).mem.read a.toNat = v :=
    Memory.read_write_same _ _ (drainAll_mem_wf (State.inv_iff_parts.1 hinv).mem_wf)
  have hstarted : ∀ t : State, t.races = [] → t.posted = [] → t.mem = (hostMemWrite a v s).mem →
      engineRead t a = (v, t) := by
    intro t hr hp hm
    rw [engineRead_quiet hr hp, hm, hread]
  exact ⟨hstarted _ hraces hposted rfl, hstarted _ hraces hposted rfl⟩

/-! ## What starts an operation -/

theorem engineTurn_of_idle {s : State} (h : s.phase = .idle) : engineTurn s = s := by
  rcases engineTurn_cases s with heq | ⟨-, -, hp, -⟩
  · exact heq
  · exact absurd h hp

theorem State.BlockAtReset.idle {s : State} (h : s.BlockAtReset) : s.phase = .idle := by
  obtain ⟨-, -, -, -, -, -, -, -, -, -, -, -, hp, -⟩ := h
  exact hp

/-- Of the register writes only a command changes the phase. -/
theorem hostRegWrite_phase {off : BitVec 6} {size : AccessSize} {v : Word} {s t : State}
    (h : hostRegWrite off size v s = .next t) :
    t.phase = s.phase ∨ (s.rst = false ∧ size = .word ∧ off = 0x00#6 ∧ command v s = .next t) := by
  rcases hostRegWrite_cases off size v s with
    hw | ⟨hrst, hsize, ⟨hoff, hw⟩ | ⟨-, hw⟩ | ⟨-, hw⟩ | ⟨-, hw⟩ | ⟨-, hw⟩ | ⟨-, hw⟩ | ⟨-, hw⟩ | ⟨-, hw⟩⟩ <;>
    rw [hw] at h
  case inr.inl => exact .inr ⟨hrst, hsize, hoff, h⟩
  all_goals
    cases h
    exact .inl rfl

/-- A command that changes the phase is EMBED or EXTRACT (42_host_access R169). -/
theorem command_phase {w : Word} {s t : State} (h : command w s = .next t) :
    t.phase = s.phase ∨ w = 0x00000001#32 ∨ w = 0x00000002#32 := by
  rcases command_cases w s with ⟨-, hc⟩ | ⟨-, -, hc⟩ | ⟨hw, -, -⟩ | ⟨hw, -, -⟩
  case inr.inr.inl => exact .inr (.inl hw)
  case inr.inr.inr => exact .inr (.inr hw)
  all_goals
    rw [hc] at h
    cases h
    exact .inl rfl

/-- Settles O45: of what a step can do to the block, a turn of the engine, reset and the other register writes leave an
idle block idle. -/
theorem onlyACommandStartsAnOperation : Obligations.OnlyACommandStartsAnOperation := by
  unfold Obligations.OnlyACommandStartsAnOperation
  intro s t h hidle hbusy
  rw [State.busy_eq_false] at hidle
  rw [State.busy_eq_true] at hbusy
  rcases step_cases h with hblock | ⟨u, hu, rfl⟩ | ⟨-, hreset⟩ | ⟨off, size, v, rest, hev, hw⟩
  · exact absurd ((congrArg State.phase hblock :).trans hidle) hbusy
  · have huidle : u.phase = .idle := (congrArg State.phase hu :).trans hidle
    rw [engineTurn_of_idle huidle] at hbusy
    exact absurd huidle hbusy
  · exact absurd hreset.idle hbusy
  · rcases hostRegWrite_phase hw with hsame | ⟨hrst, rfl, rfl, hc⟩
    · exact absurd (hsame.trans hidle) hbusy
    · rcases command_phase hc with hsame | hword
      · exact absurd (hsame.trans hidle) hbusy
      · exact ⟨hrst, v, rest, hword, hev⟩

end Sys2Proof.Machine

/-! PROOFS. The encodings (spec/30_encoding.md): the command words (R96 to R98), the red byte (R93, R94), the places of
the header, the length and the payload in the stream (R88 to R90), and their assembly from the stream (R95). -/

namespace Sys2Proof.Machine

open Sys2Proof

/-! ## The command words -/

theorem decode_encode (i : Instr) : decode (encode i) = .ok i := by
  have hencoding : Laws.Encoding.Statement i :=
    match i with
    | .nop => Laws.Encoding.nop
    | .embed => Laws.Encoding.embed
    | .extract => Laws.Encoding.extract
  obtain ⟨-, hdecode, -⟩ := hencoding
  exact hdecode

/-- Every word but the three of the command map is reserved (30_encoding R98). -/
theorem decode_reserved {w : Word} (hnop : w ≠ 0x00000000#32) (hembed : w ≠ 0x00000001#32)
    (hextract : w ≠ 0x00000002#32) : decode w = .error (.reserved w) := by
  rw [decode, if_neg hnop, if_neg hembed, if_neg hextract]

/-- The decoder compares whole words, so no second word decodes to an instruction (30_encoding R96). -/
theorem eq_encode_of_decode {w : Word} {i : Instr} (h : decode w = .ok i) : w = encode i := by
  rw [decode] at h
  split_ifs at h with hnop hembed hextract <;> cases h
  · exact hnop
  · exact hembed
  · exact hextract

/-- Settles O1: each encoding decodes back, and the decoder has a branch for the three words and for no other. -/
theorem commandWordsDecodeAndEncode : Obligations.CommandWordsDecodeAndEncode := by
  unfold Obligations.CommandWordsDecodeAndEncode
  exact ⟨decode_encode .nop, decode_encode .embed, decode_encode .extract, fun i _ => decode_encode i,
    fun _ _ h => eq_encode_of_decode h, fun _ => decode_reserved⟩

/-! ## The red byte -/

/-- The mask of `NewRed` clears bit 0 alone (30_encoding R93). -/
theorem newRed_eq_setBit (r : Byte) (b : Bool) : newRed r b = setBit r 0 b := rfl

theorem getLsbD_newRed {i : Nat} (r : Byte) (b : Bool) (hi : i < 8) :
    (newRed r b).getLsbD i = if i = 0 then b else r.getLsbD i := by
  rw [newRed_eq_setBit, getLsbD_setBit r 0 b hi]

@[simp] theorem redBit_newRed (r : Byte) (b : Bool) : redBit (newRed r b) = b :=
  getLsbD_newRed r b (by decide)

theorem getLsbD_newRed_of_pos {i : Nat} (r : Byte) (b : Bool) (hi : 1 ≤ i) :
    (newRed r b).getLsbD i = r.getLsbD i := by
  by_cases hlt : i < 8
  · rw [getLsbD_newRed r b hlt, if_neg (Nat.ne_of_gt hi)]
  · rw [BitVec.getLsbD_of_ge _ _ (Nat.le_of_not_lt hlt), BitVec.getLsbD_of_ge _ _ (Nat.le_of_not_lt hlt)]

/-- Settles O26: `NewRed` places one bit, at bit 0. -/
theorem redWriteChangesOnlyBitZero : Obligations.RedWriteChangesOnlyBitZero := by
  unfold Obligations.RedWriteChangesOnlyBitZero
  exact fun r b => ⟨rfl, rfl, redBit_newRed r b, fun _ hi => getLsbD_newRed_of_pos r b hi⟩

/-! ## The places of the fields in the stream -/

theorem getLsbD_magicByte {i : Nat} (magic : BitVec 24) (m : Nat) (hi : i < 8) :
    (magicByte magic m).getLsbD i = magic.getLsbD (8 * m + i) := by
  simp [magicByte, hi]

section
variable (magic : BitVec 24) (len : BitVec 16) (pay : Nat → Byte)

/-- The header is the first 24 bits (30_encoding R88). -/
theorem streamBit_header {k : Nat} (hk : k < 24) : streamBit magic len pay k = magic.getLsbD k := if_pos hk

/-- The length follows the header (30_encoding R89). -/
theorem streamBit_length {i : Nat} (hi : i < 16) : streamBit magic len pay (24 + i) = len.getLsbD i := by
  have hheader : ¬24 + i < 24 := by omega
  have hlength : 24 + i < 40 := by omega
  rw [streamBit, if_neg hheader, if_pos hlength, Nat.add_sub_cancel_left]

/-- The payload follows the length, byte after byte (30_encoding R90). -/
theorem streamBit_payload (n : Nat) {i : Nat} (hi : i < 8) :
    streamBit magic len pay (40 + 8 * n + i) = (pay n).getLsbD i := by
  have hheader : ¬40 + 8 * n + i < 24 := by omega
  have hlength : ¬40 + 8 * n + i < 40 := by omega
  have hbyte : (40 + 8 * n + i - 40) / 8 = n := by omega
  have hbit : (40 + 8 * n + i - 40) % 8 = i := by omega
  rw [streamBit, if_neg hheader, if_neg hlength, hbyte, hbit]

end

/-- Settles O27: each field has its branch of the stream, and byte `m` of the header starts at bit `8m`. -/
theorem streamFieldsStandAtTheirBits : Obligations.StreamFieldsStandAtTheirBits := by
  unfold Obligations.StreamFieldsStandAtTheirBits
  refine fun magic len pay => ⟨fun k hk => streamBit_header magic len pay hk, fun m hm i hi => ?_,
    fun i hi => streamBit_length magic len pay hi, fun n i hi => streamBit_payload magic len pay n hi⟩
  have hk : 8 * m + i < 24 := by omega
  rw [streamBit_header magic len pay hk, getLsbD_magicByte magic m hi]

/-! ## Assembling the fields -/

/-- The sum over the low `n` bits of a number is the number modulo `2^n`. -/
theorem bitSum_eq_mod {f : Nat → Bool} {x n : Nat} (h : ∀ i < n, f i = x.testBit i) : bitSum f n = x % 2 ^ n := by
  induction n with
  | zero => simp [bitSum, Nat.mod_one]
  | succ n ih =>
    have hlow : bitSum f n = x % 2 ^ n := ih fun i hi => h i (Nat.lt_succ_of_lt hi)
    have htop : (if f n = true then 2 ^ n else 0) = 2 ^ n * (x.testBit n).toNat := by
      rw [h n (Nat.lt_succ_self n)]
      cases x.testBit n <;> simp
    rw [bitSum, hlow, htop, Nat.toNat_testBit, Nat.mod_pow_succ]

/-- The sum over all bits of a word gives the word back (30_encoding R95). -/
theorem bitSum_eq_toNat {w : Nat} {f : Nat → Bool} (v : BitVec w) (h : ∀ i < w, f i = v.getLsbD i) :
    bitSum f w = v.toNat := by
  rw [bitSum_eq_mod (x := v.toNat) h, Nat.mod_eq_of_lt v.isLt]

theorem decodedByte_eq {bits : Nat → Bool} {n : Nat} (v : Byte) (h : ∀ i < 8, bits (40 + 8 * n + i) = v.getLsbD i) :
    decodedByte bits n = v := by
  rw [decodedByte, bitSum_eq_toNat v h, BitVec.ofNat_toNat, BitVec.setWidth_eq]

/-- Settles O28: each field's sum runs over the bits of that field in the stream, and the length fits its 16 bits. -/
theorem streamDecodesToWhatWasEncoded : Obligations.StreamDecodesToWhatWasEncoded := by
  unfold Obligations.StreamDecodesToWhatWasEncoded
  intro magic len pay hlen bits
  refine ⟨bitSum_eq_toNat magic fun _ hi => streamBit_header _ _ _ hi, ?_,
    fun n _ => decodedByte_eq (pay n) fun _ hi => streamBit_payload _ _ _ n hi⟩
  have hfits : (BitVec.ofNat 16 len).toNat = len := by
    rw [BitVec.toNat_ofNat, Nat.mod_eq_of_lt (by omega)]
  exact (bitSum_eq_toNat (BitVec.ofNat 16 len) fun _ hi => streamBit_length _ _ _ hi).trans hfits

end Sys2Proof.Machine

/-! PROOFS. EMBED (spec/40_embed.md): its start (R111), the engine's turns in its four phases (R112 to R115), and what
`EmbedFn` leaves in memory (R116, R118). -/

namespace Sys2Proof.Machine

open Sys2Proof

/-! ## The start -/

/-- Settles O3: on an idle block `exec` of EMBED is the start, and the fields it sets are those named. -/
theorem embedOnIdleBlockStarts : Obligations.EmbedOnIdleBlockStarts := by
  unfold Obligations.EmbedOnIdleBlockStarts
  intro s hidle
  have hexec : exec .embed s = .next (startEmbed s) := by
    rw [exec, execEmbed, hidle, if_neg Bool.false_ne_true]
  exact ⟨startEmbed s, hexec, rfl, rfl, rfl⟩

/-! ## A turn of the engine, one phase at a time -/

/-- Outside reset and at backed addresses a turn of the engine is the step of its phase. -/
theorem engineTurn_of_backed {s : State} (hrst : s.rst = false) (h : ∀ a ∈ engineAccesses s, backed s a = true) :
    engineTurn s = engineStep s := by
  have hstuck : engineStuck s = false := by simpa [engineStuck] using h
  simp [engineTurn, hrst, hstuck]

/-- Settles O18: in neither phase the engine accesses memory, so its turn is the check of the phase. -/
theorem embedLengthAndCapacityChecks : Obligations.EmbedLengthAndCapacityChecks := by
  unfold Obligations.EmbedLengthAndCapacityChecks
  refine fun s hrst => ⟨fun hp => ?_, fun hp => ?_⟩ <;>
    have hnone : engineAccesses s = [] := by simp [engineAccesses, hp]
  · exact ⟨hnone, by rw [engineTurn_of_backed hrst (by simp [hnone]), engineStep, hp]; rfl⟩
  · exact ⟨hnone, by rw [engineTurn_of_backed hrst (by simp [hnone]), engineStep, hp]; rfl⟩

theorem Undisturbed.engineRead {s : State} {a : Addr} (h : Undisturbed s a) :
    engineRead s a = (s.mem.read a.toNat, s) :=
  engineRead_of_no_race (racedVals_of_no_race_at h.1) (postedVals_of_none_at h.2)

/-- A scan step on an undisturbed byte looks at the byte of memory (40_embed R113). -/
theorem embedScan_of_undisturbed {s : State} (hp : s.phase = .eScan) (h : s.StepUndisturbed) :
    embedScan s =
      if s.j = s.sL.toNat then { s with phase := .eCap }
      else if Config.asciiLimit ≤ (s.mem.read (payAddr s s.j).toNat).toNat then finish .nonAsciiPayload s
      else { s with j := s.j + 1 } := by
  by_cases hj : s.j = s.sL.toNat
  · simp only [embedScan, if_pos hj]
  · have hread := (h (payAddr s s.j) (by simp [engineAccesses, hp, hj])).engineRead
    simp only [embedScan, if_neg hj, hread, ge_iff_le]

/-- Settles O19: the scan step reads the byte of memory, and at the end of the payload reads none. -/
theorem embedAsciiScan : Obligations.EmbedAsciiScan := by
  unfold Obligations.EmbedAsciiScan
  intro s hp hrst hundisturbed
  have hstep : engineStep s = embedScan s := by rw [engineStep, hp]
  refine ⟨fun hj => ?_, fun hj hbacked => ?_⟩
  · rw [engineTurn_of_backed hrst (by simp [engineAccesses, hp, hj]), hstep, embedScan_of_undisturbed hp hundisturbed,
      if_pos hj]
  · rw [engineTurn_of_backed hrst (by simpa [engineAccesses, hp, hj] using hbacked), hstep,
      embedScan_of_undisturbed hp hundisturbed, if_neg hj, payAddr, payAddrAt_toNat]
    rfl

/-- The payload byte in `cur` after the fetch of a write step, where no other agent disturbs it. -/
def State.fetchedByte (s : State) : Byte :=
  if 40 ≤ s.k ∧ (s.k - 40) % 8 = 0 then s.mem.read (payAddr s ((s.k - 40) / 8)).toNat else s.cur

/-- The state after a write step's accesses, where no other agent disturbs their bytes (40_embed R115). -/
def State.bitPut (s : State) : State :=
  { s with
    cur := s.fetchedByte
    mem := s.mem.write (redAddr s s.k).toNat
      (newRed (s.mem.read (redAddr s s.k).toNat) (embedBit { s with cur := s.fetchedByte }))
    k := s.k + 1 }

theorem embedFetch_of_undisturbed {s : State} (hp : s.phase = .eWrite) (h : s.StepUndisturbed) :
    embedFetch s = { s with cur := s.fetchedByte } := by
  by_cases hfirst : 40 ≤ s.k ∧ (s.k - 40) % 8 = 0
  · have hpay : embedPayloadRead s = some ((s.k - 40) / 8) := if_pos hfirst
    have hread := (h (payAddr s ((s.k - 40) / 8)) (by simp [engineAccesses, hp, hpay])).engineRead
    simp only [embedFetch, hpay, hread, State.fetchedByte, if_pos hfirst]
  · have hpay : embedPayloadRead s = none := if_neg hfirst
    simp only [embedFetch, hpay, State.fetchedByte, if_neg hfirst]

theorem embedPut_of_undisturbed {s : State} (h : Undisturbed s (redAddr s s.k)) :
    embedPut s =
      { s with
        mem := s.mem.write (redAddr s s.k).toNat (newRed (s.mem.read (redAddr s s.k).toNat) (embedBit s))
        k := s.k + 1 } := by
  simp only [embedPut, h.engineRead, engineWrite_of_no_race_at h.1]

/-- A write step on undisturbed bytes (40_embed R115). -/
theorem embedWrite_of_undisturbed {s : State} (hp : s.phase = .eWrite) (h : s.StepUndisturbed) :
    embedWrite s = if s.k + 1 = streamLen s.sL.toNat then finish .ok s.bitPut else s.bitPut := by
  have hred : Undisturbed s (redAddr s s.k) := h _ (by simp [engineAccesses, hp])
  have hput : embedPut (embedFetch s) = s.bitPut := by
    rw [embedFetch_of_undisturbed hp h]
    exact embedPut_of_undisturbed (s := { s with cur := s.fetchedByte }) hred
  rw [embedWrite, hput]
  rfl

/-- The stream bit of a write step is a bit of P_MAGIC, of the length as latched, or of the current payload byte. -/
theorem embedBit_eq (s : State) :
    embedBit s =
      if s.k < 24 then s.platform.magic.getLsbD s.k
      else if s.k < 40 then s.sL.getLsbD (s.k - 24)
      else s.cur.getLsbD ((s.k - 40) % 8) := by
  unfold embedBit streamBit
  split
  · rfl
  · split
    · next h40 =>
      have hbit : s.k - 24 < 16 := by omega
      rw [BitVec.getLsbD_setWidth, decide_eq_true hbit, Bool.true_and]
    · rfl

/-- Settles O20: the write step fetches, puts its bit in the red byte and counts, and nothing else. -/
theorem embedWriteStep : Obligations.EmbedWriteStep := by
  unfold Obligations.EmbedWriteStep
  intro s hp hrst hundisturbed hbacked fetched b red u
  have hfetched : s.fetchedByte = fetched := by
    simp only [State.fetchedByte, payAddr, payAddrAt_toNat, fetched]
  have hu : s.bitPut = u := by
    simp only [State.bitPut, hfetched, embedBit_eq, redAddr, redAddrAt_toNat]
    rfl
  rw [engineTurn_of_backed hrst hbacked, engineStep, hp]
  exact (embedWrite_of_undisturbed hp hundisturbed).trans (by rw [hu]; rfl)

/-! ## What `EmbedFn` leaves in memory -/

section
variable (magic : BitVec 24) (m : Memory) (gb pb : Addr) (len : Nat)

/-- The loop of `EmbedFn` writes no byte but the red bytes it has reached (40_embed R118). -/
theorem embedWritten_read_of_ne {n : Nat} {a : Addr} (h : ∀ p < n, a ≠ redAddrAt gb p) :
    (embedWritten magic m gb pb len n).read a.toNat = m.read a.toNat := by
  induction n with
  | zero => rfl
  | succ n ih =>
    have hne : a.toNat ≠ (redAddrAt gb n).toNat := mt BitVec.eq_of_toNat_eq (h n (Nat.lt_succ_self n))
    rw [embedWritten, Memory.read_write_ne _ _ hne]
    exact ih fun p hp => h p (Nat.lt_succ_of_lt hp)

theorem embedWritten_wf {m : Memory} (hm : m.wf = true) (n : Nat) :
    (embedWritten magic m gb pb len n).wf = true := by
  induction n with
  | zero => exact hm
  | succ n ih => exact Memory.wf_write _ _ ih

theorem redAddrAt_ne {p q : Nat} (hp : p < maxStream) (hq : q < maxStream) (h : p ≠ q) :
    redAddrAt gb p ≠ redAddrAt gb q := by
  obtain ⟨-, -, hinj, -⟩ := engineAddressesWrapAndAreDistinct
  exact mt (hinj gb p q hp hq) h

/-- The red bytes below `n` carry the stream after `n` turns of the loop: turn `p` finds the byte of pixel `p` as it was
and no later turn writes it again, as the red bytes of one grid are distinct. -/
theorem redByte_embedWritten {m : Memory} (hm : m.wf = true) {n : Nat} (hn : n ≤ maxStream) {p : Nat} (hp : p < n) :
    redByte (embedWritten magic m gb pb len n) gb p =
      newRed (redByte m gb p) (streamBit magic (BitVec.ofNat 16 len) (payloadByte m pb) p) := by
  induction n with
  | zero => exact absurd hp (Nat.not_lt_zero p)
  | succ n ih =>
    rw [embedWritten, redByte]
    rcases Nat.lt_succ_iff_lt_or_eq.1 hp with hlt | rfl
    · have hne : (redAddrAt gb p).toNat ≠ (redAddrAt gb n).toNat :=
        mt BitVec.eq_of_toNat_eq (redAddrAt_ne gb (by omega) (by omega) (by omega))
      rw [Memory.read_write_ne _ _ hne]
      exact ih (by omega) hlt
    · have hold : redByte (embedWritten magic m gb pb len p) gb p = redByte m gb p :=
        embedWritten_read_of_ne magic m gb pb len fun q hq => redAddrAt_ne gb (by omega) (by omega) (by omega)
      rw [Memory.read_write_same _ _ (embedWritten_wf magic gb pb len hm p), hold]

end

/-- Settles O55: the loop of `EmbedFn` puts each stream bit in its own red byte, and writes no other byte. -/
theorem embedFnLeavesTheStream : Obligations.EmbedFnLeavesTheStream := by
  unfold Obligations.EmbedFnLeavesTheStream
  intro magic m gb pb len hm hlen
  have hT : 40 + 8 * len ≤ maxStream := by
    simp only [maxStream, streamLen, Config.prefixBits, Config.maxLen]
    omega
  exact ⟨fun p hp => redByte_embedWritten magic gb pb len hm hT hp,
    fun a ha => embedWritten_read_of_ne magic m gb pb len ha⟩

end Sys2Proof.Machine

/-! PROOFS. Whole EMBED operations (spec/40_embed.md): every EMBED finishes within its bound (R122), changes bit 0 of red
bytes only (R118), reports its first failing check (R117), and computes `EmbedFn` (R121). -/

namespace Sys2Proof.Machine

open Sys2Proof

/-! ## The states an EMBED reaches -/

/-- `t` is a state that the engine's turns after the start of EMBED in `s` can reach, as far as the phase, the counters
and the latches tell. -/
structure EmbedReached (s t : State) : Prop where
  latched : t.outsideEngine = (startEmbed s).outsideEngine
  not_xBits : t.phase ≠ .xBits
  phaseInv : t.PhaseInv

/-- What a turn of the engine does not change is as the start of EMBED left it. -/
theorem EmbedReached.congr {α : Type} {s t : State} (h : EmbedReached s t) (f : State → α) :
    f t.outsideEngine = f (startEmbed s).outsideEngine :=
  congrArg f h.latched

theorem EmbedReached.sL {s t : State} (h : EmbedReached s t) : t.sL = s.payloadLen := h.congr State.sL

theorem EmbedReached.sN {s t : State} (h : EmbedReached s t) : t.sN = pixelCount s := h.congr State.sN

theorem EmbedReached.sGB {s t : State} (h : EmbedReached s t) : t.sGB = s.gridBase := h.congr State.sGB

theorem EmbedReached.sPB {s t : State} (h : EmbedReached s t) : t.sPB = s.payloadBase := h.congr State.sPB

theorem EmbedReached.platform {s t : State} (h : EmbedReached s t) : t.platform = s.platform := h.congr State.platform

theorem EmbedReached.rst {s t : State} (h : EmbedReached s t) : t.rst = s.rst := h.congr State.rst

theorem EmbedReached.posted {s t : State} (h : EmbedReached s t) : t.posted = s.posted := h.congr State.posted

theorem embedReached_startEmbed (s : State) : EmbedReached s (startEmbed s) where
  latched := rfl
  not_xBits := by simp
  phaseInv := ⟨rfl, rfl⟩

/-! ## Every step of EMBED comes nearer to its end -/

/-- How many engine steps EMBED can still take (40_embed R122). -/
def State.embedStepsLeft (s : State) : Nat :=
  match s.phase with
  | .idle | .xBits => 0
  | .eLen => 1 + (s.sL.toNat + 1) + 1 + streamLen s.sL.toNat
  | .eScan => (s.sL.toNat - s.j + 1) + 1 + streamLen s.sL.toNat
  | .eCap => 1 + streamLen s.sL.toNat
  | .eWrite => streamLen s.sL.toNat - s.k

/-- The step of EMBED from `s` to `t` keeps the phase's facts, and `t` is nearer to the end. -/
structure EmbedAdvances (s t : State) : Prop where
  not_xBits : t.phase ≠ .xBits
  phaseInv : t.PhaseInv
  stepsLeft : t.embedStepsLeft < s.embedStepsLeft

theorem embedStepsLeft_pos {s : State} (hphase : s.PhaseInv) (hidle : s.phase ≠ .idle) (hx : s.phase ≠ .xBits) :
    0 < s.embedStepsLeft := by
  unfold State.embedStepsLeft
  cases hp : s.phase with
  | idle => exact absurd hp hidle
  | xBits => exact absurd hp hx
  | eLen | eScan | eCap => simp only; omega
  | eWrite =>
    simp only [State.PhaseInv, hp] at hphase
    obtain ⟨-, -, hk, -⟩ := hphase
    exact Nat.sub_pos_of_lt hk

theorem finish_embedAdvances {s : State} (h : 0 < s.embedStepsLeft) (r : Result) (t : State) :
    EmbedAdvances s (finish r t) where
  not_xBits := by simp
  phaseInv := rfl
  stepsLeft := h

theorem embedLen_embedAdvances {s : State} (hphase : s.PhaseInv) (hp : s.phase = .eLen) :
    EmbedAdvances s (embedLen s) := by
  have hpos := embedStepsLeft_pos hphase (by simp [hp]) (by simp [hp])
  simp only [State.PhaseInv, hp] at hphase
  obtain ⟨hk, hj⟩ := hphase
  unfold embedLen
  split
  · exact finish_embedAdvances hpos _ _
  · next hL =>
    refine ⟨by simp, ⟨hk, not_lt.1 hL, hj.le.trans (Nat.zero_le _)⟩, ?_⟩
    simp only [State.embedStepsLeft, hp]
    omega

theorem embedScan_embedAdvances {s : State} (hphase : s.PhaseInv) (hp : s.phase = .eScan) :
    EmbedAdvances s (embedScan s) := by
  have hpos := embedStepsLeft_pos hphase (by simp [hp]) (by simp [hp])
  simp only [State.PhaseInv, hp] at hphase
  obtain ⟨hk, hL, hj⟩ := hphase
  unfold embedScan
  split
  · next hend =>
    refine ⟨by simp, ⟨hk, hL, hend⟩, ?_⟩
    simp only [State.embedStepsLeft, hp]
    omega
  · next hmore =>
    have hj' : s.j + 1 ≤ s.sL.toNat := by omega
    dsimp only
    split
    · exact finish_embedAdvances hpos _ _
    · refine ⟨by simp [hp], ?_, ?_⟩
      · simpa only [State.PhaseInv, engineRead_state_phase, hp] using ⟨hk, hL, hj'⟩
      · simp only [State.embedStepsLeft, engineRead_state_phase, hp, engineRead_state_sL, engineRead_state_j]
        omega

theorem embedCap_embedAdvances {s : State} (hphase : s.PhaseInv) (hp : s.phase = .eCap) :
    EmbedAdvances s (embedCap s) := by
  have hpos := embedStepsLeft_pos hphase (by simp [hp]) (by simp [hp])
  simp only [State.PhaseInv, hp] at hphase
  obtain ⟨-, hL, hj⟩ := hphase
  unfold embedCap
  split
  · exact finish_embedAdvances hpos _ _
  · next hroom =>
    refine ⟨by simp, ⟨hL, hj, ?_, not_lt.1 hroom⟩, ?_⟩
    · simp [streamLen, Config.prefixBits]
    · simp only [State.embedStepsLeft, hp]
      omega

theorem embedWrite_embedAdvances {s : State} (hphase : s.PhaseInv) (hp : s.phase = .eWrite) :
    EmbedAdvances s (embedWrite s) := by
  have hpos := embedStepsLeft_pos hphase (by simp [hp]) (by simp [hp])
  simp only [State.PhaseInv, hp] at hphase
  obtain ⟨hL, hj, hk, hroom⟩ := hphase
  unfold embedWrite
  dsimp only
  split
  · exact finish_embedAdvances hpos _ _
  · next hmore =>
    simp only [embedPut_k, embedFetch_k, embedPut_sL, embedFetch_sL] at hmore
    refine ⟨by simp [hp], ?_, ?_⟩
    · simp only [State.PhaseInv, embedPut_phase, embedFetch_phase, hp, embedPut_k, embedFetch_k, embedPut_sL,
        embedFetch_sL, embedPut_j, embedFetch_j, embedPut_sN, embedFetch_sN]
      exact ⟨hL, hj, by omega, hroom⟩
    · simp only [State.embedStepsLeft, embedPut_phase, embedFetch_phase, hp, embedPut_k, embedFetch_k, embedPut_sL,
        embedFetch_sL]
      omega

theorem engineStep_embedAdvances {s : State} (hphase : s.PhaseInv) (hidle : s.phase ≠ .idle) (hx : s.phase ≠ .xBits) :
    EmbedAdvances s (engineStep s) := by
  unfold engineStep
  cases hp : s.phase with
  | idle => exact absurd hp hidle
  | xBits => exact absurd hp hx
  | eLen => exact embedLen_embedAdvances hphase hp
  | eScan => exact embedScan_embedAdvances hphase hp
  | eCap => exact embedCap_embedAdvances hphase hp
  | eWrite => exact embedWrite_embedAdvances hphase hp

theorem EmbedReached.engineTurn {s t : State} (h : EmbedReached s t) : EmbedReached s (engineTurn t) := by
  rcases engineTurn_cases t with heq | ⟨-, -, hidle, heq⟩ <;> rw [heq]
  · exact h
  · have hadv := engineStep_embedAdvances h.phaseInv hidle h.not_xBits
    exact ⟨(engineStep_outsideEngine_of_not_xBits h.not_xBits).trans h.latched, hadv.not_xBits, hadv.phaseInv⟩

/-! ## EMBED finishes -/

/-- A running EMBED has the footprint of its start (70_reset_and_hazards R219). -/
theorem EmbedReached.inFootprint {s t : State} (h : EmbedReached s t) (hidle : t.phase ≠ .idle) (a : Addr) :
    inFootprint t a = inFootprint (startEmbed s) a := by
  rw [inFootprint_of_embed hidle h.not_xBits, inFootprint_of_embed (by simp) (by simp)]
  simp only [isPayBelow, isRedBelow, h.sL, h.sPB, h.sGB]
  rfl

/-- With a backed footprint the engine is not stuck, and its turn is a step. -/
theorem EmbedReached.engineTurn_eq_engineStep {s t : State} (h : EmbedReached s t) (hrst : s.rst = false)
    (hbacked : (startEmbed s).FootprintBacked) (hidle : t.phase ≠ .idle) :
    Machine.engineTurn t = engineStep t := by
  refine engineTurn_of_backed (h.rst.trans hrst) fun a ha => ?_
  have hfoot : Machine.inFootprint (startEmbed s) a = true :=
    (h.inFootprint hidle a).symm.trans (inFootprint_of_mem_engineAccesses h.phaseInv ha)
  have hplatform : backed t a = backed (startEmbed s) a := by rw [backed, h.platform]; rfl
  exact hplatform.trans (hbacked a hfoot)

/-- As many turns as EMBED can still take steps make it idle. -/
theorem EmbedReached.idle_of_stepsLeft_le {s : State} (hrst : s.rst = false)
    (hbacked : (startEmbed s).FootprintBacked) :
    ∀ {n : Nat} {t : State}, EmbedReached s t → t.embedStepsLeft ≤ n → (runEngine n t).phase = .idle := by
  intro n
  induction n with
  | zero =>
    intro t h hleft
    by_contra hidle
    exact absurd (embedStepsLeft_pos h.phaseInv hidle h.not_xBits) (Nat.not_lt_of_le hleft)
  | succ n ih =>
    intro t h hleft
    refine ih h.engineTurn ?_
    by_cases hidle : t.phase = .idle
    · simp [engineTurn_of_idle hidle, State.embedStepsLeft, hidle]
    · have hless := (engineStep_embedAdvances h.phaseInv hidle h.not_xBits).stepsLeft
      rw [h.engineTurn_eq_engineStep hrst hbacked hidle]
      omega

/-- Every EMBED with a backed footprint finishes (40_embed R122). -/
theorem embed_idle {s : State} (hrst : s.rst = false) (hbacked : (startEmbed s).FootprintBacked) :
    (runEngine (1 + (s.payloadLen.toNat + 1) + 1 + streamLen s.payloadLen.toNat) (startEmbed s)).phase = .idle :=
  (embedReached_startEmbed s).idle_of_stepsLeft_le hrst hbacked le_rfl

/-- Settles O56: each step comes nearer to the end, and for a payload that is too long the first one is `Finish`. -/
theorem embedFinishesWithinItsBound : Obligations.EmbedFinishesWithinItsBound := by
  unfold Obligations.EmbedFinishesWithinItsBound
  refine fun s hrst hbacked => ⟨fun _ => ⟨_, le_rfl, embed_idle hrst hbacked⟩, fun hL => ⟨by simp, ?_⟩⟩
  have hturn : engineTurn (startEmbed s) = embedLen (startEmbed s) :=
    (embedReached_startEmbed s).engineTurn_eq_engineStep hrst hbacked (by simp)
  have hlong : (startEmbed s).sL.toNat > Config.maxLen := hL
  rw [runEngine, runEngine, hturn, embedLen, if_pos hlong, finish_phase]

/-! ## An EMBED that no other agent disturbs -/

/-- `t` is reached by an EMBED that no other agent disturbs: nothing raced and nothing outstanding. -/
structure QuietEmbed (s t : State) : Prop extends EmbedReached s t where
  quiet : t.Quiet

theorem State.Quiet.stepUndisturbed {s : State} (h : s.Quiet) : s.StepUndisturbed := by
  obtain ⟨hraces, hposted⟩ := h
  exact fun a _ => ⟨by simp [hraces], by simp [hposted]⟩

theorem State.Quiet.finish_mem {s : State} (h : s.Quiet) (r : Result) : (finish r s).mem = s.mem := by
  rw [Machine.finish_mem, settle_of_no_races h.1]

theorem State.Quiet.bitPut {s : State} (h : s.Quiet) : s.bitPut.Quiet := h

theorem quietEmbed_startEmbed {s : State} (h : s.Quiet) : QuietEmbed s (startEmbed s) where
  toEmbedReached := embedReached_startEmbed s
  quiet := h

/-- All that a turn of the engine can do to an undisturbed EMBED: nothing, end it with a failing check, move it on
without an access to memory, or put one bit of the stream (40_embed R112 to R115). -/
inductive EmbedTurn (t : State) : State → Prop where
  | none : EmbedTurn t t
  | tooLong (hp : t.phase = .eLen) (hL : Config.maxLen < t.sL.toNat) : EmbedTurn t (finish .payloadTooLarge t)
  | lengthOk (hp : t.phase = .eLen) (hL : t.sL.toNat ≤ Config.maxLen) : EmbedTurn t { t with phase := .eScan }
  | scanned (hp : t.phase = .eScan) (hj : t.j = t.sL.toNat) : EmbedTurn t { t with phase := .eCap }
  | nonAscii (hp : t.phase = .eScan) (hj : t.j < t.sL.toNat)
      (hb : Config.asciiLimit ≤ (payloadByte t.mem t.sPB t.j).toNat) : EmbedTurn t (finish .nonAsciiPayload t)
  | ascii (hp : t.phase = .eScan) (hb : (payloadByte t.mem t.sPB t.j).toNat < Config.asciiLimit) :
      EmbedTurn t { t with j := t.j + 1 }
  | noRoom (hp : t.phase = .eCap) (hN : t.sN < streamLen t.sL.toNat) : EmbedTurn t (finish .insufficientCapacity t)
  | roomOk (hp : t.phase = .eCap) (hN : streamLen t.sL.toNat ≤ t.sN) : EmbedTurn t { t with k := 0, phase := .eWrite }
  | lastBit (hp : t.phase = .eWrite) (hk : t.k + 1 = streamLen t.sL.toNat) : EmbedTurn t (finish .ok t.bitPut)
  | bit (hp : t.phase = .eWrite) : EmbedTurn t t.bitPut

theorem QuietEmbed.engineTurn_cases {s t : State} (h : QuietEmbed s t) : EmbedTurn t (engineTurn t) := by
  have hundisturbed := h.quiet.stepUndisturbed
  have hphase := h.phaseInv
  rcases Machine.engineTurn_cases t with heq | ⟨-, -, hidle, heq⟩ <;> rw [heq]
  · exact .none
  · unfold engineStep
    cases hp : t.phase with
    | idle => exact absurd hp hidle
    | xBits => exact absurd hp h.not_xBits
    | eLen =>
      dsimp only [embedLen]
      split
      · next hL => exact .tooLong hp hL
      · next hL => exact .lengthOk hp (not_lt.1 hL)
    | eScan =>
      simp only [State.PhaseInv, hp] at hphase
      obtain ⟨-, -, hj⟩ := hphase
      dsimp only
      rw [embedScan_of_undisturbed hp hundisturbed]
      split
      · next hend => exact .scanned hp hend
      · next hmore =>
        split
        · next hb => exact .nonAscii hp (lt_of_le_of_ne hj hmore) hb
        · next hb => exact .ascii hp (not_le.1 hb)
    | eCap =>
      dsimp only [embedCap]
      split
      · next hN => exact .noRoom hp hN
      · next hN => exact .roomOk hp (not_lt.1 hN)
    | eWrite =>
      dsimp only
      rw [embedWrite_of_undisturbed hp hundisturbed]
      split
      · next hk => exact .lastBit hp hk
      · exact .bit hp

/-- The engine makes neither races nor host writes. -/
theorem EmbedTurn.quiet {t u : State} (h : EmbedTurn t u) (hq : t.Quiet) : u.Quiet := by
  obtain ⟨hraces, hposted⟩ := hq
  cases h with
  | tooLong | nonAscii | noRoom | lastBit => exact ⟨rfl, hposted⟩
  | none | lengthOk | scanned | ascii | roomOk | bit => exact ⟨hraces, hposted⟩

theorem QuietEmbed.engineTurn {s t : State} (h : QuietEmbed s t) : QuietEmbed s (engineTurn t) where
  toEmbedReached := h.toEmbedReached.engineTurn
  quiet := h.engineTurn_cases.quiet h.quiet

/-- What the start of EMBED gives and each turn of the engine keeps holds whenever the engine has taken `n` turns. -/
theorem quietEmbed_induction {s : State} {P : State → Prop} (hq : s.Quiet) (h0 : P (startEmbed s))
    (hturn : ∀ t u, QuietEmbed s t → EmbedTurn t u → P t → P u) (n : Nat) :
    QuietEmbed s (runEngine n (startEmbed s)) ∧ P (runEngine n (startEmbed s)) := by
  have key : ∀ (n : Nat) (t : State), QuietEmbed s t → P t → QuietEmbed s (runEngine n t) ∧ P (runEngine n t) := by
    intro n
    induction n with
    | zero => exact fun t h hP => ⟨h, hP⟩
    | succ n ih => exact fun t h hP => ih _ h.engineTurn (hturn t _ h h.engineTurn_cases hP)
  exact key n _ (quietEmbed_startEmbed hq) h0

/-! ## EMBED changes only bit 0 of red bytes -/

/-- From `m` to `m'` only bit 0 of the first `n` red bytes of the grid at `gb` can have changed (40_embed R118). -/
def OnlyRedBitZeroChanged (gb : Addr) (n : Nat) (m m' : Memory) : Prop :=
  ∀ a : Addr,
    (∀ i : Nat, 1 ≤ i → (m'.read a.toNat).getLsbD i = (m.read a.toNat).getLsbD i) ∧
    ((∀ p < n, a ≠ redAddrAt gb p) → m'.read a.toNat = m.read a.toNat)

theorem OnlyRedBitZeroChanged.refl (gb : Addr) (n : Nat) (m : Memory) : OnlyRedBitZeroChanged gb n m m :=
  fun _ => ⟨fun _ _ => rfl, fun _ => rfl⟩

/-- `NewRed` of a red byte, written back, changes its bit 0 only (30_encoding R93). -/
theorem OnlyRedBitZeroChanged.write {gb : Addr} {n : Nat} {m m' : Memory} (h : OnlyRedBitZeroChanged gb n m m')
    (hwf : m'.wf = true) {p : Nat} (hp : p < n) (b : Bool) :
    OnlyRedBitZeroChanged gb n m
      (m'.write (redAddrAt gb p).toNat (newRed (m'.read (redAddrAt gb p).toNat) b)) := by
  intro a
  obtain ⟨hbits, hother⟩ := h a
  by_cases ha : a = redAddrAt gb p
  · refine ⟨fun i hi => ?_, fun hno => absurd ha (hno p hp)⟩
    rw [← ha, Memory.read_write_same _ _ hwf, getLsbD_newRed_of_pos _ b hi]
    exact hbits i hi
  · rw [Memory.read_write_ne _ _ (mt BitVec.eq_of_toNat_eq ha)]
    exact ⟨hbits, hother⟩

/-- The memory of EMBED so far: in canonical form, with only stream bits put in red bytes. -/
def EmbedMemory (s t : State) : Prop :=
  t.mem.wf = true ∧ OnlyRedBitZeroChanged s.gridBase (streamLen s.payloadLen.toNat) s.mem t.mem

theorem embedMemory_of_mem_eq {s t u : State} (h : EmbedMemory s t) (hmem : u.mem = t.mem) : EmbedMemory s u := by
  rwa [EmbedMemory, hmem]

theorem QuietEmbed.embedMemory_bitPut {s t : State} (h : QuietEmbed s t) (hp : t.phase = .eWrite)
    (hm : EmbedMemory s t) : EmbedMemory s t.bitPut := by
  have hphase := h.phaseInv
  simp only [State.PhaseInv, hp, h.sL] at hphase
  obtain ⟨-, -, hk, -⟩ := hphase
  obtain ⟨hwf, honly⟩ := hm
  refine ⟨Memory.wf_write _ _ hwf, ?_⟩
  simpa only [State.bitPut, redAddr, h.sGB] using honly.write hwf hk _

theorem EmbedTurn.embedMemory {s t u : State} (h : QuietEmbed s t) (hturn : EmbedTurn t u) (hm : EmbedMemory s t) :
    EmbedMemory s u := by
  cases hturn with
  | none | lengthOk | scanned | ascii | roomOk => exact hm
  | tooLong | nonAscii | noRoom => exact embedMemory_of_mem_eq hm (h.quiet.finish_mem _)
  | bit hp => exact h.embedMemory_bitPut hp hm
  | lastBit hp => exact embedMemory_of_mem_eq (h.embedMemory_bitPut hp hm) (h.quiet.bitPut.finish_mem _)

/-- Settles O52: of the engine's turns only that of a write step reaches memory, and it puts one bit in a red byte. -/
theorem embedChangesOnlyRedBitZero : Obligations.EmbedChangesOnlyRedBitZero := by
  unfold Obligations.EmbedChangesOnlyRedBitZero
  intro s n a hq hwf
  obtain ⟨-, -, honly⟩ := quietEmbed_induction (P := EmbedMemory s) hq ⟨hwf, .refl _ _ _⟩
    (fun _ _ h hturn hm => hturn.embedMemory h hm) n
  exact honly a

/-! ## EMBED computes `EmbedFn` -/

/-- `EmbedFn` of the memory and the operands at the start of EMBED in `s` (40_embed R121). -/
def State.embedOutcome (s : State) : Result × Memory × Nat :=
  embedFn s.platform.magic s.mem (pixelCount s) s.gridBase s.payloadBase s.payloadLen.toNat

/-- The payload buffer lies over none of the stream's red bytes (20_memory R83). -/
def State.PayloadApart (s : State) : Prop :=
  NoOverlap s.gridBase s.payloadBase s.payloadLen.toNat (streamLen s.payloadLen.toNat)

/-- The memory of `EmbedFn` after the first `n` turns of its loop. -/
def State.embedLoop (s : State) (n : Nat) : Memory :=
  embedWritten s.platform.magic s.mem s.gridBase s.payloadBase s.payloadLen.toNat n

theorem hasNonAscii_eq_true_iff (m : Memory) (pb : Addr) (len : Nat) :
    hasNonAscii m pb len = true ↔ ∃ i < len, Config.asciiLimit ≤ (payloadByte m pb i).toNat := by
  simp [hasNonAscii]

/-- The scan goes on past a byte that is ASCII. -/
theorem hasNonAscii_succ {m : Memory} {pb : Addr} {j : Nat} (h : hasNonAscii m pb j = false)
    (hb : (payloadByte m pb j).toNat < Config.asciiLimit) : hasNonAscii m pb (j + 1) = false := by
  unfold hasNonAscii at h ⊢
  simp [List.range_succ, h, hb]

section
variable (s : State)

theorem embedOutcome_tooLong (hL : Config.maxLen < s.payloadLen.toNat) :
    s.embedOutcome = (.payloadTooLarge, s.mem, 0) := by
  rw [State.embedOutcome, embedFn, if_pos hL]

theorem embedOutcome_nonAscii (hL : s.payloadLen.toNat ≤ Config.maxLen)
    (hb : hasNonAscii s.mem s.payloadBase s.payloadLen.toNat = true) :
    s.embedOutcome = (.nonAsciiPayload, s.mem, 0) := by
  rw [State.embedOutcome, embedFn, if_neg (Nat.not_lt.2 hL), if_pos hb]

theorem embedOutcome_noRoom (hL : s.payloadLen.toNat ≤ Config.maxLen)
    (hb : hasNonAscii s.mem s.payloadBase s.payloadLen.toNat = false)
    (hN : pixelCount s < streamLen s.payloadLen.toNat) : s.embedOutcome = (.insufficientCapacity, s.mem, 0) := by
  rw [State.embedOutcome, embedFn, if_neg (Nat.not_lt.2 hL), if_neg (by simp [hb]), if_pos hN]

theorem embedOutcome_ok (hL : s.payloadLen.toNat ≤ Config.maxLen)
    (hb : hasNonAscii s.mem s.payloadBase s.payloadLen.toNat = false)
    (hN : streamLen s.payloadLen.toNat ≤ pixelCount s) :
    s.embedOutcome = (.ok, s.embedLoop (streamLen s.payloadLen.toNat), streamLen s.payloadLen.toNat) := by
  rw [State.embedOutcome, embedFn, if_neg (Nat.not_lt.2 hL), if_neg (by simp [hb]), if_neg (Nat.not_lt.2 hN)]
  rfl

/-- The code of `EmbedFn` is that of the first failing check (40_embed R117). -/
theorem embedOutcome_code :
    s.embedOutcome.1 =
      if s.payloadLen.toNat > 65535 then .payloadTooLarge
      else if hasNonAscii s.mem s.payloadBase s.payloadLen.toNat = true then .nonAsciiPayload
      else if s.width.toNat * s.height.toNat < 40 + 8 * s.payloadLen.toNat then .insufficientCapacity
      else .ok := by
  simp only [State.embedOutcome, embedFn, apply_ite Prod.fst]
  rfl

end

/-- A failing check of `EmbedFn` leaves memory, and BITPOS at 0. -/
theorem embedOutcome_of_fails {s : State} (h : s.embedOutcome.1 ≠ .ok) : s.embedOutcome.2 = (s.mem, 0) := by
  unfold State.embedOutcome embedFn at h ⊢
  split_ifs at h ⊢
  · rfl
  · rfl
  · rfl
  · exact absurd rfl h

/-- A finished EMBED has the result of `EmbedFn`, and its memory and BITPOS too, but where a payload that passed the
checks lay over red bytes. -/
structure EmbedFinished (s t : State) : Prop where
  done : t.done = true
  result : t.result = s.embedOutcome.1
  rest : (s.embedOutcome.1 = .ok → s.PayloadApart) → (t.mem, t.k) = s.embedOutcome.2

/-- EMBED in its write phase has passed the ASCII check, and its memory is that of the loop of `EmbedFn` at turn `k`; in
the midst of a payload byte `cur` holds that byte. -/
structure EmbedWriting (s t : State) : Prop where
  ascii : hasNonAscii s.mem s.payloadBase s.payloadLen.toNat = false
  mem : s.PayloadApart → t.mem = s.embedLoop t.k
  cur : s.PayloadApart → (t.k - 40) % 8 ≠ 0 → t.cur = payloadByte s.mem s.payloadBase ((t.k - 40) / 8)

/-- How far EMBED has come along `EmbedFn`, phase by phase. -/
def EmbedProgress (s t : State) : Prop :=
  match t.phase with
  | .idle => EmbedFinished s t
  | .eLen => t.mem = s.mem
  | .eScan => t.mem = s.mem ∧ hasNonAscii s.mem s.payloadBase t.j = false
  | .eCap => t.mem = s.mem ∧ hasNonAscii s.mem s.payloadBase s.payloadLen.toNat = false
  | .eWrite => EmbedWriting s t
  | .xBits => False

/-- `Finish` with a failing check, which leaves memory and BITPOS (40_embed R117, 60_exceptions R198). -/
theorem embedFinished_of_fails {s t : State} (hq : t.Quiet) {r : Result} (hmem : t.mem = s.mem) (hk : t.k = 0)
    (hout : s.embedOutcome = (r, s.mem, 0)) : EmbedFinished s (finish r t) where
  done := rfl
  result := by rw [hout, finish_result]
  rest := fun _ => by rw [hout, hq.finish_mem, finish_k, hmem, hk]

/-- The payload byte `p` is as it was at the start, as the loop has not written it. -/
theorem payloadByte_embedLoop {s : State} (hapart : s.PayloadApart) {n p : Nat} (hn : n ≤ streamLen s.payloadLen.toNat)
    (hp : p < s.payloadLen.toNat) :
    payloadByte (s.embedLoop n) s.payloadBase p = payloadByte s.mem s.payloadBase p :=
  embedWritten_read_of_ne _ _ _ _ _ fun q hq => hapart p hp q (Nat.lt_of_lt_of_le hq hn)

/-- In a write step of the payload `cur` comes to hold the byte of stream bit `k` as it was at the start. -/
theorem EmbedWriting.fetchedByte {s t : State} (hw : EmbedWriting s t) (h : QuietEmbed s t) (hp : t.phase = .eWrite)
    (hapart : s.PayloadApart) (h40 : 40 ≤ t.k) :
    t.fetchedByte = payloadByte s.mem s.payloadBase ((t.k - 40) / 8) := by
  have hphase := h.phaseInv
  simp only [State.PhaseInv, hp, h.sL] at hphase
  obtain ⟨-, -, hk, -⟩ := hphase
  unfold State.fetchedByte
  split
  · have hbyte : (t.k - 40) / 8 < s.payloadLen.toNat := by
      simp only [streamLen, Config.prefixBits] at hk
      omega
    rw [← payloadByte_embedLoop hapart hk.le hbyte, ← hw.mem hapart, payAddr, h.sPB, payloadByte]
  · next hmid => exact hw.cur hapart fun h0 => hmid ⟨h40, h0⟩

/-- The bit a write step puts is that of the stream of `EmbedFn` (30_encoding R92). -/
theorem EmbedWriting.embedBit {s t : State} (hw : EmbedWriting s t) (h : QuietEmbed s t) (hp : t.phase = .eWrite)
    (hapart : s.PayloadApart) :
    embedBit { t with cur := t.fetchedByte } =
      streamBit s.platform.magic (BitVec.ofNat 16 s.payloadLen.toNat) (payloadByte s.mem s.payloadBase) t.k := by
  unfold Machine.embedBit streamBit
  rw [BitVec.ofNat_toNat, ← h.platform, ← h.sL]
  by_cases h40 : 40 ≤ t.k
  · rw [hw.fetchedByte h hp hapart h40]
  · rw [if_pos (c := t.k < 40) (Nat.not_le.1 h40), if_pos (c := t.k < 40) (Nat.not_le.1 h40)]

/-- A write step is a turn of the loop of `EmbedFn`. -/
theorem EmbedWriting.bitPut {s t : State} (hw : EmbedWriting s t) (h : QuietEmbed s t) (hp : t.phase = .eWrite) :
    EmbedWriting s t.bitPut where
  ascii := hw.ascii
  mem := fun hapart => by
    have hmem := hw.mem hapart
    show t.mem.write _ _ = s.embedLoop (t.k + 1)
    rw [hw.embedBit h hp hapart, redAddr, h.sGB, hmem]
    rfl
  cur := fun hapart (hmid : (t.k + 1 - 40) % 8 ≠ 0) => by
    have hbyte : (t.k + 1 - 40) / 8 = (t.k - 40) / 8 := by omega
    show t.fetchedByte = payloadByte s.mem s.payloadBase ((t.k + 1 - 40) / 8)
    rw [hbyte]
    exact hw.fetchedByte h hp hapart (by omega)

theorem EmbedTurn.embedProgress {s t u : State} (h : QuietEmbed s t) (hturn : EmbedTurn t u)
    (hprog : EmbedProgress s t) : EmbedProgress s u := by
  have hphase := h.phaseInv
  cases hturn with
  | none => exact hprog
  | tooLong hp hL =>
    simp only [EmbedProgress, State.PhaseInv, hp, h.sL] at hprog hphase hL
    obtain ⟨hk, -⟩ := hphase
    exact embedFinished_of_fails h.quiet hprog hk (embedOutcome_tooLong s hL)
  | lengthOk hp hL =>
    simp only [EmbedProgress, State.PhaseInv, hp] at hprog hphase
    obtain ⟨-, hj⟩ := hphase
    exact ⟨hprog, by rw [hj]; rfl⟩
  | scanned hp hj =>
    simp only [EmbedProgress, hp, hj, h.sL] at hprog
    exact hprog
  | nonAscii hp hj hb =>
    simp only [EmbedProgress, State.PhaseInv, hp, h.sL] at hprog hphase hj
    obtain ⟨hmem, -⟩ := hprog
    obtain ⟨hk, hL, -⟩ := hphase
    rw [hmem, h.sPB] at hb
    exact embedFinished_of_fails h.quiet hmem hk
      (embedOutcome_nonAscii s hL ((hasNonAscii_eq_true_iff _ _ _).2 ⟨_, hj, hb⟩))
  | ascii hp hb =>
    simp only [EmbedProgress, hp] at hprog ⊢
    obtain ⟨hmem, hbelow⟩ := hprog
    rw [hmem, h.sPB] at hb
    exact ⟨hmem, hasNonAscii_succ hbelow hb⟩
  | noRoom hp hN =>
    simp only [EmbedProgress, State.PhaseInv, hp, h.sL, h.sN] at hprog hphase hN
    obtain ⟨hmem, hascii⟩ := hprog
    obtain ⟨hk, hL, -⟩ := hphase
    exact embedFinished_of_fails h.quiet hmem hk (embedOutcome_noRoom s hL hascii hN)
  | roomOk hp hN =>
    simp only [EmbedProgress, hp] at hprog
    obtain ⟨hmem, hascii⟩ := hprog
    exact ⟨hascii, fun _ => hmem, fun _ hmid => absurd rfl hmid⟩
  | bit hp =>
    have hprog' : EmbedWriting s t := by simpa only [EmbedProgress, hp] using hprog
    have hp' : t.bitPut.phase = .eWrite := hp
    simpa only [EmbedProgress, hp'] using hprog'.bitPut h hp
  | lastBit hp hk =>
    simp only [EmbedProgress, State.PhaseInv, hp, h.sL, h.sN] at hprog hphase hk
    obtain ⟨hL, -, -, hN⟩ := hphase
    have hout := embedOutcome_ok s hL hprog.ascii hN
    have hput := hprog.bitPut h hp
    refine ⟨rfl, by rw [hout, finish_result], fun hapart => ?_⟩
    have hk' : t.bitPut.k = streamLen s.payloadLen.toNat := hk
    rw [hout] at hapart ⊢
    rw [h.quiet.bitPut.finish_mem, finish_k, hput.mem (hapart rfl), hk']

/-- An undisturbed EMBED with a backed footprint ends with what `EmbedFn` gives. -/
theorem embed_finished {s : State} (hrst : s.rst = false) (hq : s.Quiet) (hbacked : (startEmbed s).FootprintBacked) :
    ∃ n : Nat, (runEngine n (startEmbed s)).phase = .idle ∧ EmbedFinished s (runEngine n (startEmbed s)) := by
  have hidle := embed_idle hrst hbacked
  obtain ⟨-, hprog⟩ := quietEmbed_induction (P := EmbedProgress s) hq rfl (fun _ _ h hturn => hturn.embedProgress h)
    (1 + (s.payloadLen.toNat + 1) + 1 + streamLen s.payloadLen.toNat)
  refine ⟨_, hidle, ?_⟩
  simpa only [EmbedProgress, hidle] using hprog

/-- Settles O53: EMBED ends with the code of `EmbedFn`, which is that of the first failing check. -/
theorem embedReportsTheFirstFailingCheck : Obligations.EmbedReportsTheFirstFailingCheck := by
  unfold Obligations.EmbedReportsTheFirstFailingCheck
  intro s hrst hq hbacked
  obtain ⟨n, hidle, hfinished⟩ := embed_finished hrst hq hbacked
  refine ⟨n, hidle, hfinished.done, hfinished.result.trans (embedOutcome_code s), fun hfails => ?_⟩
  rw [hfinished.result] at hfails
  have hrest := (hfinished.rest fun hok => absurd hok hfails).trans (embedOutcome_of_fails hfails)
  exact Prod.mk.inj hrest

/-- Settles O54: each write step is a turn of the loop of `EmbedFn`, and a payload that passes the checks is not too
long, so the premise on overlap has it apart from the red bytes. -/
theorem embedComputesEmbedFn : Obligations.EmbedComputesEmbedFn := by
  unfold Obligations.EmbedComputesEmbedFn
  intro s hrst hq hbacked hapart
  obtain ⟨n, hidle, hfinished⟩ := embed_finished hrst hq hbacked
  refine ⟨n, hidle, hfinished.done, Prod.ext hfinished.result (hfinished.rest fun hok => hapart ?_)⟩
  by_contra hL
  rw [embedOutcome_tooLong s (Nat.not_le.1 hL)] at hok
  cases hok

end Sys2Proof.Machine

/-! PROOFS. The text checks of EXTRACT (spec/41_extract.md R145 to R147): ASCII, and well-formed UTF-8 by the table. -/

namespace Sys2Proof.Machine

open Sys2Proof

theorem inRange_iff (r : ByteRange) (b : Byte) : inRange r b = true ↔ r.lo.toNat ≤ b.toNat ∧ b.toNat ≤ r.hi.toNat := by
  simp [inRange]

/-! ## The row of a lead byte -/

/-- The ranges of byte 1 of two rows of the table do not overlap (41_extract R147). -/
theorem utf8Table_leads_disjoint :
    ∀ r ∈ utf8Table, ∀ q ∈ utf8Table,
      r = q ∨ r.lead.hi.toNat < q.lead.lo.toNat ∨ q.lead.hi.toNat < r.lead.lo.toNat := by
  decide

theorem utf8RowOf_eq_some {b : Byte} {r : Utf8Row} (h : utf8RowOf b = some r) :
    r ∈ utf8Table ∧ inRange r.lead b = true :=
  ⟨List.mem_of_find?_eq_some h, List.find?_some (p := fun r : Utf8Row => inRange r.lead b) h⟩

theorem utf8RowOf_eq_some_iff (b : Byte) (r : Utf8Row) :
    utf8RowOf b = some r ↔ r ∈ utf8Table ∧ inRange r.lead b = true := by
  refine ⟨utf8RowOf_eq_some, fun ⟨hr, hb⟩ => ?_⟩
  cases hrow : utf8RowOf b with
  | none => exact absurd hb (List.find?_eq_none.1 hrow r hr)
  | some q =>
    obtain ⟨hmem, hq⟩ := utf8RowOf_eq_some hrow
    rw [inRange_iff] at hb hq
    rcases utf8Table_leads_disjoint q hmem r hr with heq | hlt | hlt
    · rw [heq]
    · omega
    · omega

/-! ## Bytes in ranges -/

/-- The bytes are one in each of the ranges, in order. -/
def InRanges (rs : List ByteRange) (d : List Byte) : Prop := List.Forall₂ (fun range b => inRange range b = true) rs d

theorem inRanges_nil_iff (d : List Byte) : InRanges [] d ↔ d = [] := List.forall₂_nil_left_iff

theorem inRanges_cons_iff (r : ByteRange) (rs : List ByteRange) (d : List Byte) :
    InRanges (r :: rs) d ↔ ∃ b p, inRange r b = true ∧ InRanges rs p ∧ d = b :: p :=
  List.forall₂_cons_left_iff

theorem matchesRow_iff (r : Utf8Row) (d : List Byte) :
    MatchesRow r d ↔ ∃ b p, inRange r.lead b = true ∧ InRanges r.rest p ∧ d = b :: p :=
  inRanges_cons_iff r.lead r.rest d

theorem InRanges.exists_range {rs : List ByteRange} {d : List Byte} (h : InRanges rs d) {b : Byte} (hb : b ∈ d) :
    ∃ range ∈ rs, inRange range b = true := by
  induction h with
  | nil => cases hb
  | @cons r c rs d hc _ ih =>
    rcases List.mem_cons.1 hb with rfl | hb
    · exact ⟨r, List.mem_cons_self, hc⟩
    · obtain ⟨range, hrange, hin⟩ := ih hb
      exact ⟨range, List.mem_cons_of_mem r hrange, hin⟩

/-! ## Well-formed UTF-8 -/

/-- The bytes complete the ranges still expected, and then are well-formed UTF-8. -/
def CompletesUtf8 (rs : List ByteRange) (d : List Byte) : Prop := ∃ p q, d = p ++ q ∧ InRanges rs p ∧ WellFormedUtf8 q

theorem completesUtf8_nil_iff (d : List Byte) : CompletesUtf8 [] d ↔ WellFormedUtf8 d := by
  simp [CompletesUtf8, inRanges_nil_iff]

theorem completesUtf8_cons_nil (r : ByteRange) (rs : List ByteRange) : ¬CompletesUtf8 (r :: rs) [] := by
  rintro ⟨p, q, hd, hp, -⟩
  obtain ⟨b, p, -, -, rfl⟩ := (inRanges_cons_iff r rs p).1 hp
  cases hd

theorem completesUtf8_cons_cons_iff (r : ByteRange) (rs : List ByteRange) (b : Byte) (d : List Byte) :
    CompletesUtf8 (r :: rs) (b :: d) ↔ inRange r b = true ∧ CompletesUtf8 rs d := by
  constructor
  · rintro ⟨p, q, hd, hp, hq⟩
    obtain ⟨c, p, hc, hrest, rfl⟩ := (inRanges_cons_iff r rs p).1 hp
    cases hd
    exact ⟨hc, p, q, rfl, hrest, hq⟩
  · rintro ⟨hb, p, q, rfl, hp, hq⟩
    exact ⟨b :: p, q, rfl, .cons hb hp, hq⟩

theorem wellFormedUtf8_nil : WellFormedUtf8 [] := ⟨[], rfl, by simp⟩

/-- Well-formed UTF-8 that is not empty starts with a byte sequence of a row (41_extract R147). -/
theorem wellFormedUtf8_cons_iff (b : Byte) (d : List Byte) :
    WellFormedUtf8 (b :: d) ↔ ∃ r ∈ utf8Table, inRange r.lead b = true ∧ CompletesUtf8 r.rest d := by
  constructor
  · rintro ⟨parts, hd, hparts⟩
    cases parts with
    | nil => cases hd
    | cons part parts =>
      obtain ⟨r, hr, hrow⟩ := hparts part List.mem_cons_self
      obtain ⟨c, p, hlead, hrest, rfl⟩ := (matchesRow_iff r part).1 hrow
      cases hd
      exact ⟨r, hr, hlead, p, parts.flatten, rfl, hrest, parts, rfl, fun p hp => hparts p (List.mem_cons_of_mem _ hp)⟩
  · rintro ⟨r, hr, hlead, p, q, rfl, hrest, parts, rfl, hparts⟩
    refine ⟨(b :: p) :: parts, rfl, fun part hpart => ?_⟩
    rcases List.mem_cons.1 hpart with rfl | hpart
    · exact ⟨r, hr, .cons hlead hrest⟩
    · exact hparts part hpart

/-- A byte where a sequence may start goes on with the rest of its row. -/
theorem utf8From_nil_cons_iff (b : Byte) (d : List Byte) :
    utf8From [] (b :: d) = true ↔ ∃ r ∈ utf8Table, inRange r.lead b = true ∧ utf8From r.rest d = true := by
  have hrow : utf8From [] (b :: d) = true ↔ ∃ r, utf8RowOf b = some r ∧ utf8From r.rest d = true := by
    rw [utf8From]
    cases utf8RowOf b <;> simp
  simp only [hrow, utf8RowOf_eq_some_iff, and_assoc]

theorem utf8From_iff (d : List Byte) (rs : List ByteRange) : utf8From rs d = true ↔ CompletesUtf8 rs d := by
  induction d generalizing rs with
  | nil =>
    cases rs with
    | nil => exact ⟨fun _ => (completesUtf8_nil_iff []).2 wellFormedUtf8_nil, fun _ => rfl⟩
    | cons r rs => exact ⟨nofun, fun h => absurd h (completesUtf8_cons_nil r rs)⟩
  | cons b d ih =>
    cases rs with
    | nil => simp only [utf8From_nil_cons_iff, completesUtf8_nil_iff, wellFormedUtf8_cons_iff, ih]
    | cons r rs => simp only [utf8From, Bool.and_eq_true, completesUtf8_cons_cons_iff, ih]

theorem utf8Valid_iff (d : List Byte) : utf8Valid d = true ↔ WellFormedUtf8 d := by
  rw [utf8Valid, utf8From_iff, completesUtf8_nil_iff]

/-! ## ASCII -/

theorem asciiValid_iff (d : List Byte) : asciiValid d = true ↔ ∀ b ∈ d, b.toNat < 0x80 := by
  simp only [asciiValid, List.all_eq_true, decide_eq_true_eq]
  rfl

/-- Every ASCII byte is a sequence of the first row of the table. -/
theorem wellFormedUtf8_of_ascii {d : List Byte} (h : ∀ b ∈ d, b.toNat < 0x80) : WellFormedUtf8 d := by
  refine ⟨d.map fun b => [b], by simp [← List.flatMap_def], fun p hp => ?_⟩
  obtain ⟨b, hb, rfl⟩ := List.mem_map.1 hp
  have hlead : inRange { lo := 0x00#8, hi := 0x7F#8 } b = true :=
    (inRange_iff _ b).2 ⟨Nat.zero_le _, Nat.le_of_lt_succ (h b hb)⟩
  exact ⟨_, List.mem_cons_self, .cons hlead .nil⟩

/-- ASCII text passes either check (41_extract R146, R147). -/
theorem textValid_of_ascii (xm : TextMode) {d : List Byte} (h : ∀ b ∈ d, b.toNat < 0x80) : textValid xm d = true := by
  cases xm with
  | utf8 => exact (utf8Valid_iff d).2 (wellFormedUtf8_of_ascii h)
  | ascii => exact (asciiValid_iff d).2 h

/-! ## Bytes that are in no sequence -/

/-- No range of the table holds C0, C1, or a byte from F5 on (41_extract R147). -/
theorem utf8Table_ranges :
    ∀ r ∈ utf8Table, ∀ range ∈ r.lead :: r.rest,
      (range.hi.toNat < 0xC0 ∨ 0xC1 < range.lo.toNat) ∧ range.hi.toNat < 0xF5 := by
  decide

theorem wellFormedUtf8_bytes {d : List Byte} (h : WellFormedUtf8 d) {b : Byte} (hb : b ∈ d) :
    b ≠ 0xC0#8 ∧ b ≠ 0xC1#8 ∧ b.toNat < 0xF5 := by
  obtain ⟨parts, rfl, hparts⟩ := h
  obtain ⟨p, hp, hbp⟩ := List.mem_flatten.1 hb
  obtain ⟨r, hr, hrow⟩ := hparts p hp
  obtain ⟨range, hrange, hin⟩ := InRanges.exists_range (rs := r.lead :: r.rest) hrow hbp
  obtain ⟨hmid, htop⟩ := utf8Table_ranges r hr range hrange
  rw [inRange_iff] at hin
  rw [Ne, Ne, BitVec.toNat_eq, BitVec.toNat_eq, BitVec.toNat_ofNat, BitVec.toNat_ofNat]
  omega

/-- Settles O29: the check follows the concatenation, sequence by sequence, as a lead byte has one row. -/
theorem textChecksAreAsciiAndWellFormedUtf8 : Obligations.TextChecksAreAsciiAndWellFormedUtf8 := by
  unfold Obligations.TextChecksAreAsciiAndWellFormedUtf8
  exact ⟨asciiValid_iff, utf8Valid_iff, fun d h => textValid_of_ascii .utf8 ((asciiValid_iff d).1 h),
    fun d h _ hb => wellFormedUtf8_bytes ((utf8Valid_iff d).1 h) hb⟩

end Sys2Proof.Machine

/-! PROOFS. EXTRACT (spec/41_extract.md): its start (R136), and the engine's turn in its one phase (R137). -/

namespace Sys2Proof.Machine

open Sys2Proof

/-! ## The start -/

/-- Settles O4: on an idle block `exec` of EXTRACT is the start, and the fields it sets are those named. -/
theorem extractOnIdleBlockStarts : Obligations.ExtractOnIdleBlockStarts := by
  unfold Obligations.ExtractOnIdleBlockStarts
  intro s hidle
  have hexec : exec .extract s = .next (startExtract s) := by
    rw [exec, execExtract, hidle, if_neg Bool.false_ne_true]
  exact ⟨startExtract s, hexec, rfl, rfl, rfl⟩

/-! ## The bit taken, and its place -/

/-- Where the grid has no pixel `k` and the mode is ERROR, no bit can be taken (41_extract R138). -/
theorem extractBits_of_missing {s : State} (hN : s.sN ≤ s.k) (hm : s.sTM = .error) :
    extractBits s = finish .truncatedImage s := by
  rw [extractBits, if_neg (Nat.not_lt.2 hN), hm]

/-- Where the grid has no pixel `k` and the mode is ZERO_FILL, the bit is 0 (41_extract R139). -/
theorem extractBits_of_filled {s : State} (hN : s.sN ≤ s.k) (hm : s.sTM = .zeroFill) :
    extractBits s = extractAct (placeBit false s) := by
  rw [extractBits, if_neg (Nat.not_lt.2 hN), hm]

/-- EXTRACT can take stream bit `k`: the grid has the pixel, or the mode fills in the bit (41_extract R139). -/
def State.CanTake (s : State) : Prop := s.k < s.sN ∨ s.sTM = .zeroFill

theorem State.not_canTake_iff (s : State) : ¬s.CanTake ↔ s.sN ≤ s.k ∧ s.sTM = .error := by
  unfold State.CanTake
  cases s.sTM <;> simp

/-- The stream bit a step of EXTRACT takes, where no other agent disturbs the red byte. -/
def State.takenBit (s : State) : Bool := if s.k < s.sN then redBit (redByte s.mem s.sGB s.k) else false

/-- The state after the stream bit is taken and placed, where no other agent disturbs the red byte. -/
def State.bitTaken (s : State) : State := placeBit s.takenBit s

/-- A step of EXTRACT on undisturbed bytes that takes a bit (41_extract R137). -/
theorem extractBits_of_undisturbed {s : State} (hp : s.phase = .xBits) (h : s.StepUndisturbed) (hbit : s.CanTake) :
    extractBits s = extractAct s.bitTaken := by
  by_cases hN : s.k < s.sN
  · have hread := (h (redAddr s s.k) (by simp [engineAccesses, hp, hN])).engineRead
    simp only [extractBits, if_pos hN, hread, State.bitTaken, State.takenBit]
    rfl
  · rw [extractBits_of_filled (not_lt.1 hN) (hbit.resolve_left hN), State.bitTaken, State.takenBit, if_neg hN]

section
variable {s : State} (b : Bool)

theorem placeBit_of_header (h : s.k < 24) : placeBit b s = { s with hdr := setBit s.hdr s.k b, k := s.k + 1 } :=
  if_pos h

theorem placeBit_of_length (h24 : 24 ≤ s.k) (h40 : s.k < 40) :
    placeBit b s = { s with lenacc := setBit s.lenacc (s.k - 24) b, k := s.k + 1 } :=
  (if_neg (Nat.not_lt.2 h24)).trans (if_pos h40)

theorem placeBit_of_byte (h40 : 40 ≤ s.k) :
    placeBit b s = { s with acc := setBit s.acc ((s.k - 40) % 8) b, k := s.k + 1 } := by
  have h24 : ¬s.k < 24 := by omega
  exact (if_neg h24).trans (if_neg (Nat.not_lt.2 h40))

end

/-! ## The acts at the field boundaries -/

theorem completeByte_end (p : Nat) : completeByte (48 + 8 * p) = some p := by
  have hend : 40 < 48 + 8 * p ∧ (48 + 8 * p - 40) % 8 = 0 := by omega
  have hbyte : (48 + 8 * p - 40) / 8 - 1 = p := by omega
  rw [completeByte, if_pos hend, hbyte]

theorem completeByte_of_mid {k : Nat} (h : k ≤ 40 ∨ (k - 40) % 8 ≠ 0) : completeByte k = none :=
  if_neg fun hend => by omega

section
variable {s : State}

theorem extractAct_of_header (hk : s.k = 24) :
    extractAct s = if s.hdr ≠ s.platform.magic then finish .missingOrInvalidHeader s else s :=
  if_pos hk

theorem extractAct_of_length (hk : s.k = 40) :
    extractAct s =
      if s.lenacc = 0 then finish .ok { s with decodedLen := s.lenacc } else { s with decodedLen := s.lenacc } := by
  have h24 : s.k ≠ 24 := by omega
  exact (if_neg h24).trans (if_pos hk)

theorem extractAct_of_byte {p : Nat} (hk : s.k = 48 + 8 * p) :
    extractAct s =
      if s.k = streamLen s.decodedLen.toNat then extractEnd (s.byteDecoded p) else s.byteDecoded p := by
  have h24 : s.k ≠ 24 := by omega
  have h40 : s.k ≠ 40 := by omega
  have hbyte : completeByte s.k = some p := hk ▸ completeByte_end p
  rw [extractAct, if_neg h24, if_neg h40, hbyte]
  rfl

theorem extractAct_of_mid (h24 : s.k ≠ 24) (h40 : s.k ≠ 40) (hmid : s.k < 40 ∨ (s.k - 40) % 8 ≠ 0) :
    extractAct s = s := by
  have hnone : completeByte s.k = none := completeByte_of_mid (hmid.imp_left Nat.le_of_lt)
  rw [extractAct, if_neg h24, if_neg h40, hnone]

/-- A bit that is the last of no field only advances the stream. -/
theorem extractAct_placeBit_of_mid (b : Bool) (h23 : s.k ≠ 23) (h39 : s.k ≠ 39) (h7 : (s.k - 40) % 8 ≠ 7) :
    extractAct (placeBit b s) = placeBit b s :=
  extractAct_of_mid (by simpa using h23) (by simpa using h39) (by rw [placeBit_k]; omega)

/-- A step that takes the last bit of a payload byte accesses that byte of the output buffer (41_extract R144). -/
theorem payAddr_mem_engineAccesses (hp : s.phase = .xBits) (hbit : s.CanTake) {p : Nat} (hk : s.k + 1 = 48 + 8 * p) :
    payAddr s p ∈ engineAccesses s := by
  have hbyte : completeByte (s.k + 1) = some p := hk ▸ completeByte_end p
  by_cases hN : s.k < s.sN
  · simp [engineAccesses, hp, hN, hbyte]
  · simp [engineAccesses, hp, hN, hbit.resolve_left hN, hbyte]

/-- The end of a payload byte that no other agent disturbs: it goes to memory and to the decoded bytes. -/
theorem byteDecoded_of_undisturbed {p : Nat} (h : Undisturbed s (payAddr s p)) :
    s.byteDecoded p = { s with mem := s.mem.write (payAddr s p).toNat s.acc, dec := s.dec ++ [s.acc] } := by
  rw [State.byteDecoded, engineWrite_of_no_race_at h.1]

end

/-- Settles O21: the bit is placed by its field, and the next index tells the act. -/
theorem extractStep : Obligations.ExtractStep := by
  unfold Obligations.ExtractStep
  intro s hp hrst hundisturbed hbacked
  have hturn : engineTurn s = extractBits s := by rw [engineTurn_of_backed hrst hbacked, engineStep, hp]
  refine ⟨fun hN hm => hturn.trans (extractBits_of_missing hN hm), ?_⟩
  intro hbit b header length byte
  have hb : s.takenBit = b := by
    simp only [State.takenBit, redBit, redByte, redAddrAt_toNat, b]
  rw [hturn, extractBits_of_undisturbed hp hundisturbed hbit, State.bitTaken, hb]
  rcases Nat.lt_or_ge s.k 24 with h24 | h24
  · by_cases h23 : s.k = 23
    · rw [extractAct_of_header (by simp [h23]), placeBit_of_header b h24]
      simp [h23, header]
    · rw [extractAct_placeBit_of_mid b h23 (by omega) (by omega), placeBit_of_header b h24, if_pos (by omega)]
  · rw [if_neg (by omega), if_neg (by omega)]
    rcases Nat.lt_or_ge s.k 40 with h40 | h40
    · by_cases h39 : s.k = 39
      · rw [extractAct_of_length (by simp [h39]), placeBit_of_length b h24 h40]
        simp [h39, length]
      · rw [extractAct_placeBit_of_mid b (by omega) h39 (by omega), placeBit_of_length b h24 h40, if_pos (by omega)]
    · rw [if_neg (by omega), if_neg (by omega)]
      by_cases h7 : (s.k - 40) % 8 = 7
      · have hend : s.k + 1 = 48 + 8 * ((s.k - 40) / 8) := by omega
        have hpay := hundisturbed _ (payAddr_mem_engineAccesses hp hbit hend)
        rw [if_neg (not_not.2 h7), extractAct_of_byte ((placeBit_k b s).trans hend), placeBit_of_byte b h40,
          byteDecoded_of_undisturbed (s := { s with acc := byte, k := s.k + 1 }) hpay]
        simp only [payAddr, payAddrAt_toNat]
        rfl
      · rw [extractAct_placeBit_of_mid b (by omega) (by omega) h7, placeBit_of_byte b h40, if_pos h7]

end Sys2Proof.Machine

/-! PROOFS. Whole EXTRACT operations (spec/41_extract.md): every EXTRACT finishes, in as many steps as its BITPOS (R154),
and writes payload bytes only (R149). -/

namespace Sys2Proof.Machine

open Sys2Proof

/-! ## What the act after a bit can do -/

/-- All that the act after a bit can do to the state `u` in which the bit is placed (41_extract R137, R141 to R145). -/
inductive ExtractActed (u : State) : State → Prop where
  | badHeader (hk : u.k = 24) (hmagic : u.hdr ≠ u.platform.magic) : ExtractActed u (finish .missingOrInvalidHeader u)
  | noPayload (hk : u.k = 40) (hlen : u.lenacc = 0) : ExtractActed u (finish .ok { u with decodedLen := u.lenacc })
  | lengthOk (hk : u.k = 40) (hlen : u.lenacc ≠ 0) : ExtractActed u { u with decodedLen := u.lenacc }
  | lastByte {p : Nat} (hk : u.k = 48 + 8 * p) (hT : u.k = streamLen u.decodedLen.toNat) :
      ExtractActed u (extractEnd (u.byteDecoded p))
  | byte {p : Nat} (hk : u.k = 48 + 8 * p) (hmore : u.k ≠ streamLen u.decodedLen.toNat) :
      ExtractActed u (u.byteDecoded p)
  | bit (hmagic : u.k = 24 → u.hdr = u.platform.magic) (h40 : u.k ≠ 40) (hmid : u.k < 40 ∨ (u.k - 40) % 8 ≠ 0) :
      ExtractActed u u

theorem extractAct_cases (u : State) : ExtractActed u (extractAct u) := by
  by_cases h24 : u.k = 24
  · rw [extractAct_of_header h24]
    split
    · next hmagic => exact .badHeader h24 hmagic
    · next hmagic => exact .bit (fun _ => not_not.1 hmagic) (by omega) (.inl (by omega))
  · by_cases h40 : u.k = 40
    · rw [extractAct_of_length h40]
      split
      · next hlen => exact .noPayload h40 hlen
      · next hlen => exact .lengthOk h40 hlen
    · by_cases hmid : u.k < 40 ∨ (u.k - 40) % 8 ≠ 0
      · rw [extractAct_of_mid h24 h40 hmid]
        exact .bit (fun hk => absurd hk h24) h40 hmid
      · have hk : u.k = 48 + 8 * ((u.k - 48) / 8) := by omega
        rw [extractAct_of_byte hk]
        split
        · next hT => exact .lastByte hk hT
        · next hmore => exact .byte hk hmore

theorem ExtractActed.k {u v : State} (h : ExtractActed u v) : v.k = u.k := by
  cases h <;> rfl

/-- Code 6 is none of the ends that come after a bit is taken (41_extract R138). -/
theorem ExtractActed.result {u v : State} (h : ExtractActed u v) (hu : u.result ≠ .truncatedImage) :
    v.result ≠ .truncatedImage := by
  cases h with
  | badHeader | noPayload => simp
  | lengthOk | byte | bit => exact hu
  | lastByte =>
    rw [extractEnd, finish_result]
    split <;> simp

theorem ExtractActed.phase {u v : State} (h : ExtractActed u v) (hp : u.phase = .xBits) :
    v.phase = .idle ∨ v.phase = .xBits := by
  cases h with
  | badHeader | noPayload | lastByte => exact .inl rfl
  | lengthOk | byte | bit => exact .inr hp

theorem ExtractActed.phaseInv {u v : State} (h : ExtractActed u v) (hu : u.BitPlaced) : v.PhaseInv := by
  cases h with
  | badHeader | noPayload | lastByte => exact rfl
  | lengthOk hk hlen => exact hu.phaseInv_of_length hk hlen
  | byte hk hmore => exact hu.phaseInv_of_byte hk hmore
  | bit hmagic h40 hmid =>
    by_cases h24 : u.k = 24
    · exact hu.phaseInv_of_header h24 (hmagic h24)
    · exact hu.phaseInv_of_none h24 h40 (completeByte_of_mid (hmid.imp_left Nat.le_of_lt))

/-! ## Every step of EXTRACT takes a bit or ends it -/

/-- A step of EXTRACT ends with code 6, or takes a bit; a red byte that another agent disturbs may use up the free value
(41_extract R137, R138). -/
theorem extractBits_cases (s : State) :
    (¬s.CanTake ∧ extractBits s = finish .truncatedImage s) ∨
      (s.CanTake ∧ ∃ (b : Bool) (c : Nat), extractBits s = extractAct (placeBit b { s with choices := c })) := by
  by_cases hbit : s.CanTake
  · refine .inr ⟨hbit, ?_⟩
    by_cases hN : s.k < s.sN
    · exact ⟨_, _, by rw [extractBits, if_pos hN]; rfl⟩
    · exact ⟨false, s.choices, extractBits_of_filled (not_lt.1 hN) (hbit.resolve_left hN)⟩
  · obtain ⟨hN, hm⟩ := s.not_canTake_iff.1 hbit
    exact .inl ⟨hbit, extractBits_of_missing hN hm⟩

theorem State.CanTake.pixel {s : State} (h : s.CanTake) (hm : s.sTM = .error) : s.k < s.sN :=
  h.resolve_right (by simp [hm])

@[simp] theorem placeBit_result (b : Bool) (s : State) : (placeBit b s).result = s.result :=
  (congrArg State.result (visible_placeBit b s) :)

/-- The step of EXTRACT from `s` to `t` keeps the phase's facts, and it takes a bit, or ends with code 6. -/
structure ExtractAdvances (s t : State) : Prop where
  phase : t.phase = .idle ∨ t.phase = .xBits
  phaseInv : t.PhaseInv
  bitpos : (t.phase = .idle ∧ t.result = .truncatedImage ∧ t.k = s.k) ∨
    (t.result ≠ .truncatedImage ∧ t.k = s.k + 1)

theorem extractBits_advances {s : State} (hphase : s.PhaseInv) (hp : s.phase = .xBits)
    (hresult : s.result ≠ .truncatedImage) : ExtractAdvances s (extractBits s) := by
  rcases extractBits_cases s with ⟨-, heq⟩ | ⟨hbit, b, c, heq⟩ <;> rw [heq]
  · exact ⟨.inl rfl, rfl, .inl ⟨rfl, rfl, rfl⟩⟩
  · have hact := extractAct_cases (placeBit b { s with choices := c })
    have hplaced : (placeBit b { s with choices := c }).BitPlaced :=
      placeBit_bitPlaced (s := { s with choices := c }) hphase hp hbit.pixel b
    exact ⟨hact.phase hplaced.phase, hact.phaseInv hplaced, .inr ⟨hact.result (by simpa using hresult), by simp⟩⟩

/-! ## The states an EXTRACT reaches -/

/-- What a turn of the engine does not change is in `t` as the start of EXTRACT in `s` left it. -/
def ExtractLatched (s t : State) : Prop :=
  { t.outsideEngine with decodedLen := 0 } = (startExtract s).outsideEngine

theorem ExtractLatched.congr {α : Type} {s t : State} (h : ExtractLatched s t) (f : State → α) :
    f { t.outsideEngine with decodedLen := 0 } = f (startExtract s).outsideEngine :=
  congrArg f h

section
variable {s t : State} (h : ExtractLatched s t)
include h

theorem ExtractLatched.sN : t.sN = pixelCount s := h.congr State.sN

theorem ExtractLatched.sGB : t.sGB = s.gridBase := h.congr State.sGB

theorem ExtractLatched.sPB : t.sPB = s.payloadBase := h.congr State.sPB

theorem ExtractLatched.sTM : t.sTM = s.truncMode := h.congr State.sTM

theorem ExtractLatched.sXM : t.sXM = s.textMode := h.congr State.sXM

theorem ExtractLatched.platform : t.platform = s.platform := h.congr State.platform

theorem ExtractLatched.rst : t.rst = s.rst := h.congr State.rst

theorem ExtractLatched.backed (a : Addr) : Machine.backed t a = Machine.backed s a := by
  rw [Machine.backed, h.platform]
  rfl

theorem ExtractLatched.placeBit (b : Bool) : ExtractLatched s (placeBit b t) := by
  rwa [ExtractLatched, placeBit_outsideEngine]

end

/-- `t` is a state that the engine's turns after the start of EXTRACT in `s` can reach, as far as the phase, the
counters and the latches tell. -/
structure ExtractReached (s t : State) : Prop where
  latched : ExtractLatched s t
  phase : t.phase = .idle ∨ t.phase = .xBits
  phaseInv : t.PhaseInv
  result : t.phase = .xBits → t.result ≠ .truncatedImage

theorem ExtractReached.xBits {s t : State} (h : ExtractReached s t) (hidle : t.phase ≠ .idle) : t.phase = .xBits :=
  h.phase.resolve_left hidle

theorem extractReached_startExtract (s : State) : ExtractReached s (startExtract s) where
  latched := rfl
  phase := .inr rfl
  phaseInv := ⟨fun _ => Nat.zero_le _, fun h => absurd h (by simp), fun _ => ⟨rfl, rfl⟩, fun h => absurd h (by simp)⟩
  result := fun _ h => by cases h

theorem ExtractReached.engineTurn {s t : State} (h : ExtractReached s t) : ExtractReached s (engineTurn t) := by
  rcases engineTurn_cases t with heq | ⟨-, -, hidle, heq⟩
  · rwa [heq]
  · have hp := h.xBits hidle
    have hstep : engineStep t = extractBits t := by rw [engineStep, hp]
    have hadv := extractBits_advances h.phaseInv hp (h.result hp)
    have hlatched := engineTurn_outsideEngine t
    rw [heq, hstep] at hlatched ⊢
    refine ⟨by rw [ExtractLatched, hlatched]; exact h.latched, hadv.phase, hadv.phaseInv, fun hp' => ?_⟩
    rcases hadv.bitpos with ⟨hidle', -, -⟩ | ⟨hresult, -⟩
    · rw [hp'] at hidle'
      cases hidle'
    · exact hresult

theorem runEngine_succ (n : Nat) (s : State) : runEngine (n + 1) s = engineTurn (runEngine n s) := by
  induction n generalizing s with
  | zero => rfl
  | succ n ih => exact ih (engineTurn s)

theorem extractReached_runEngine (s : State) (n : Nat) : ExtractReached s (runEngine n (startExtract s)) := by
  induction n with
  | zero => exact extractReached_startExtract s
  | succ n ih =>
    rw [runEngine_succ]
    exact ih.engineTurn

/-! ## EXTRACT finishes -/

theorem inFootprint_of_extract {s : State} (hx : s.phase = .xBits) (a : Addr) :
    inFootprint s a = (isRedBelow s (min s.sN maxStream) a || isPayBelow s Config.maxLen a) := by
  simp only [inFootprint, hx]

/-- A running EXTRACT has the footprint of its start (70_reset_and_hazards R219). -/
theorem ExtractReached.inFootprint {s t : State} (h : ExtractReached s t) (hp : t.phase = .xBits) (a : Addr) :
    inFootprint t a = inFootprint (startExtract s) a := by
  rw [inFootprint_of_extract hp, inFootprint_of_extract rfl]
  simp only [isPayBelow, isRedBelow, h.latched.sN, h.latched.sPB, h.latched.sGB]
  rfl

/-- The engine never stops at a byte that is not backed in the EXTRACT that starts in `s` (20_memory R73). -/
def State.ExtractFree (s : State) : Prop := ∀ n, engineStuck (runEngine n (startExtract s)) = false

/-- The engine is not stuck where what a running EXTRACT accesses next is backed. -/
theorem ExtractReached.not_stuck {s t : State} (h : ExtractReached s t)
    (hbacked : t.phase = .xBits → ∀ a ∈ engineAccesses t, Machine.backed s a = true) : engineStuck t = false := by
  by_cases hidle : t.phase = .idle
  · simp [engineStuck, engineAccesses, hidle]
  · simpa [engineStuck, h.latched.backed] using hbacked (h.xBits hidle)

theorem extractFree_of_footprintBacked {s : State} (hbacked : (startExtract s).FootprintBacked) : s.ExtractFree := by
  intro n
  have h := extractReached_runEngine s n
  exact h.not_stuck fun hp a ha =>
    hbacked a ((h.inFootprint hp a).symm.trans (inFootprint_of_mem_engineAccesses h.phaseInv ha))

section
variable {s : State} (hrst : s.rst = false) (hfree : s.ExtractFree)
include hrst hfree

/-- While EXTRACT runs each turn of a free engine takes its step. -/
theorem extract_turn {n : Nat} (hidle : (runEngine n (startExtract s)).phase ≠ .idle) :
    ExtractAdvances (runEngine n (startExtract s)) (runEngine (n + 1) (startExtract s)) := by
  have h := extractReached_runEngine s n
  have hp := h.xBits hidle
  have hstep : engineStep (runEngine n (startExtract s)) = extractBits (runEngine n (startExtract s)) := by
    rw [engineStep, hp]
  rw [runEngine_succ, engineTurn, h.latched.rst, hrst, hfree n, Bool.or_self, if_neg Bool.false_ne_true, hstep]
  exact extractBits_advances h.phaseInv hp (h.result hp)

/-- While EXTRACT runs it has taken as many bits as steps. -/
theorem extract_k {n : Nat} (hidle : (runEngine n (startExtract s)).phase ≠ .idle) :
    (runEngine n (startExtract s)).k = n := by
  induction n with
  | zero => rfl
  | succ n ih =>
    have hbefore : (runEngine n (startExtract s)).phase ≠ .idle := fun hp =>
      hidle (by rw [runEngine_succ, engineTurn_of_idle hp, hp])
    rcases (extract_turn hrst hfree hbefore).bitpos with ⟨hend, -, -⟩ | ⟨-, hk⟩
    · exact absurd hend hidle
    · rw [hk, ih hbefore]

/-- An EXTRACT whose engine is never stuck finishes, and BITPOS tells after how many steps (41_extract R154). -/
theorem extract_ends :
    ∃ n ≤ maxStream,
      (∀ i < n, (runEngine i (startExtract s)).phase ≠ .idle) ∧ (runEngine n (startExtract s)).phase = .idle ∧
      n = (runEngine n (startExtract s)).k +
            (if (runEngine n (startExtract s)).result = .truncatedImage then 1 else 0) := by
  have hroom : ∀ {n : Nat}, (runEngine n (startExtract s)).phase ≠ .idle → n < maxStream := by
    intro n hidle
    have h := extractReached_runEngine s n
    have hk := h.phaseInv.k_lt_maxStream (.inr (h.xBits hidle))
    rwa [extract_k hrst hfree hidle] at hk
  have hends : ∃ n, (runEngine n (startExtract s)).phase = .idle :=
    ⟨maxStream, by_contra fun hidle => Nat.lt_irrefl _ (hroom hidle)⟩
  obtain ⟨n, hidle, hfirst⟩ := Nat.findX hends
  cases n with
  | zero => cases hidle
  | succ n =>
    have hbefore : (runEngine n (startExtract s)).phase ≠ .idle := hfirst n (Nat.lt_succ_self n)
    have hk := extract_k hrst hfree hbefore
    refine ⟨n + 1, hroom hbefore, hfirst, hidle, ?_⟩
    rcases (extract_turn hrst hfree hbefore).bitpos with ⟨-, hresult, hk'⟩ | ⟨hresult, hk'⟩
    · rw [if_pos hresult, hk', hk]
    · rw [if_neg hresult, hk', hk]

end

/-- Settles O59: with a backed footprint the engine is never stuck. -/
theorem extractStepsAreItsBitPosition : Obligations.ExtractStepsAreItsBitPosition := by
  unfold Obligations.ExtractStepsAreItsBitPosition
  exact fun s hrst hbacked => extract_ends hrst (extractFree_of_footprintBacked hbacked)

/-! ## An EXTRACT that no other agent disturbs -/

/-- `t` is reached by an EXTRACT that no other agent disturbs: nothing raced and nothing outstanding. -/
structure QuietExtract (s t : State) : Prop extends ExtractReached s t where
  quiet : t.Quiet

theorem quietExtract_startExtract {s : State} (h : s.Quiet) : QuietExtract s (startExtract s) where
  toExtractReached := extractReached_startExtract s
  quiet := h

theorem State.Quiet.finish {s : State} (h : s.Quiet) (r : Result) : (finish r s).Quiet := ⟨rfl, h.2⟩

theorem State.Quiet.placeBit {s : State} (h : s.Quiet) (b : Bool) : (placeBit b s).Quiet := by
  obtain ⟨-, hraces, -⟩ := placeBit_frame b s
  have hposted : (Machine.placeBit b s).posted = s.posted := (congrArg State.posted (placeBit_outsideEngine b s) :)
  exact ⟨hraces.trans h.1, hposted.trans h.2⟩

/-- The end of a payload byte in a quiet state: it goes to memory and to the decoded bytes. -/
theorem State.Quiet.byteDecoded_eq {s : State} (h : s.Quiet) (p : Nat) :
    s.byteDecoded p = { s with mem := s.mem.write (payAddr s p).toNat s.acc, dec := s.dec ++ [s.acc] } :=
  byteDecoded_of_undisturbed ⟨by simp [h.1], by simp [h.2]⟩

theorem State.Quiet.byteDecoded {s : State} (h : s.Quiet) (p : Nat) : (s.byteDecoded p).Quiet := by
  rw [h.byteDecoded_eq]
  exact h

theorem ExtractActed.quiet {u v : State} (h : ExtractActed u v) (hq : u.Quiet) : v.Quiet := by
  cases h with
  | badHeader => exact hq.finish _
  | noPayload hk => exact State.Quiet.finish (s := { u with decodedLen := u.lenacc }) hq _
  | lastByte => exact (hq.byteDecoded _).finish _
  | byte => exact hq.byteDecoded _
  | lengthOk | bit => exact hq

/-- All that a turn of the engine can do to an undisturbed EXTRACT: nothing, end it with code 6, or take a bit and act
(41_extract R137). -/
inductive ExtractTurn (t : State) : State → Prop where
  | none : ExtractTurn t t
  | truncated (hp : t.phase = .xBits) (hN : t.sN ≤ t.k) (hm : t.sTM = .error) : ExtractTurn t (finish .truncatedImage t)
  | taken {u : State} (hp : t.phase = .xBits) (hbit : t.CanTake) (hact : ExtractActed t.bitTaken u) : ExtractTurn t u

theorem QuietExtract.engineTurn_cases {s t : State} (h : QuietExtract s t) : ExtractTurn t (engineTurn t) := by
  rcases Machine.engineTurn_cases t with heq | ⟨-, -, hidle, heq⟩ <;> rw [heq]
  · exact .none
  · have hp := h.xBits hidle
    rw [engineStep, hp]
    by_cases hbit : t.CanTake
    · exact .taken hp hbit (extractBits_of_undisturbed hp h.quiet.stepUndisturbed hbit ▸ extractAct_cases _)
    · obtain ⟨hN, hm⟩ := t.not_canTake_iff.1 hbit
      exact extractBits_of_missing hN hm ▸ .truncated hp hN hm

/-- The engine makes neither races nor host writes. -/
theorem ExtractTurn.quiet {t u : State} (h : ExtractTurn t u) (hq : t.Quiet) : u.Quiet := by
  cases h with
  | none => exact hq
  | truncated => exact hq.finish _
  | taken _ _ hact => exact hact.quiet (hq.placeBit _)

theorem QuietExtract.engineTurn {s t : State} (h : QuietExtract s t) : QuietExtract s (engineTurn t) where
  toExtractReached := h.toExtractReached.engineTurn
  quiet := h.engineTurn_cases.quiet h.quiet

/-- What the start of EXTRACT gives and each turn of the engine keeps holds whenever the engine has taken `n` turns. -/
theorem quietExtract_induction {s : State} {P : State → Prop} (hq : s.Quiet) (h0 : P (startExtract s))
    (hturn : ∀ t u, QuietExtract s t → ExtractTurn t u → P t → P u) (n : Nat) :
    QuietExtract s (runEngine n (startExtract s)) ∧ P (runEngine n (startExtract s)) := by
  induction n with
  | zero => exact ⟨quietExtract_startExtract hq, h0⟩
  | succ n ih =>
    obtain ⟨h, hP⟩ := ih
    rw [runEngine_succ]
    exact ⟨h.engineTurn, hturn _ _ h h.engineTurn_cases hP⟩

/-! ## EXTRACT writes payload bytes only -/

theorem QuietExtract.bitPlaced {s t : State} (h : QuietExtract s t) (hp : t.phase = .xBits) (hbit : t.CanTake) :
    t.bitTaken.BitPlaced :=
  placeBit_bitPlaced h.phaseInv hp hbit.pixel _

/-- Of the acts after a bit only the end of a payload byte reaches memory (41_extract R149). -/
theorem ExtractActed.read_of_not_payload {u v : State} (h : ExtractActed u v) (hq : u.Quiet) (hu : u.BitPlaced)
    {a : Addr} (ha : ∀ i < Config.maxLen, a ≠ payAddrAt u.sPB i) : v.mem.read a.toNat = u.mem.read a.toNat := by
  have hbyte : ∀ p, u.k = 48 + 8 * p → (u.byteDecoded p).mem.read a.toNat = u.mem.read a.toNat := by
    intro p hk
    obtain ⟨-, hT, -⟩ := hu.late (by omega)
    have hlen := u.decodedLen.isLt
    simp only [streamLen, Config.prefixBits] at hT
    have hp : p < Config.maxLen := by rw [Config.maxLen]; omega
    rw [hq.byteDecoded_eq]
    exact Memory.read_write_ne _ _ (mt BitVec.eq_of_toNat_eq (ha p hp))
  cases h with
  | badHeader | noPayload => rw [State.Quiet.finish_mem]; exact hq
  | lengthOk | bit => rfl
  | byte hk => exact hbyte _ hk
  | lastByte hk =>
    rw [extractEnd, (hq.byteDecoded _).finish_mem]
    exact hbyte _ hk

/-- Settles O57: of the engine's turns only the end of a payload byte reaches memory. -/
theorem extractWritesOnlyTheOutputBuffer : Obligations.ExtractWritesOnlyTheOutputBuffer := by
  unfold Obligations.ExtractWritesOnlyTheOutputBuffer
  intro s n a hq ha
  refine (quietExtract_induction (P := fun t => t.mem.read a.toNat = s.mem.read a.toNat) hq rfl ?_ n).2
  intro t u h hturn hread
  cases hturn with
  | none => exact hread
  | truncated => rwa [h.quiet.finish_mem]
  | taken hp hbit hact =>
    obtain ⟨hmem, -, hpb⟩ := placeBit_frame t.takenBit t
    have hpb' : t.bitTaken.sPB = s.payloadBase := hpb.trans h.latched.sPB
    rw [hact.read_of_not_payload (h.quiet.placeBit _) (h.bitPlaced hp hbit) (by rwa [hpb']), State.bitTaken, hmem,
      hread]

end Sys2Proof.Machine

/-! PROOFS. EXTRACT computes `ExtractFn` (spec/41_extract.md R151). -/

namespace Sys2Proof.Machine

open Sys2Proof

/-! ## `ExtractFn` -/

/-- `ExtractFn` of the memory and the operands at the start of EXTRACT in `s`: code, memory, DECODED_LEN and BITPOS
(41_extract R151). -/
def State.extractOutcome (s : State) : Result × Memory × Nat × Nat :=
  extractFn s.platform.magic s.mem (pixelCount s) s.gridBase s.payloadBase s.truncMode s.textMode

/-- The stream bits of `ExtractFn`, a missing one as 0. -/
def State.streamBits (s : State) (k : Nat) : Bool :=
  (takeBit s.mem (pixelCount s) s.gridBase s.truncMode k).getD false

/-- The length field of the stream (30_encoding R95). -/
def State.lengthField (s : State) : Nat := bitSum (fun i => s.streamBits (24 + i)) 16

/-- The stream has the header (41_extract R141). -/
def State.HasHeader (s : State) : Prop := bitSum s.streamBits 24 = s.platform.magic.toNat

/-- The memory of `ExtractFn` after its first `n` decoded bytes. -/
def State.extractLoop (s : State) (n : Nat) : Memory := extractWritten s.mem s.payloadBase s.streamBits n

/-- None of the first `lim` stream bits is missing: the grid has the pixels, or the mode fills in the bits (41_extract
R139). -/
def State.BitsThere (s : State) (lim : Nat) : Prop := lim ≤ pixelCount s ∨ s.truncMode = .zeroFill

theorem State.not_bitsThere_iff (s : State) (lim : Nat) :
    ¬s.BitsThere lim ↔ pixelCount s < lim ∧ s.truncMode = .error := by
  unfold State.BitsThere
  cases s.truncMode <;> simp

theorem State.BitsThere.mono {s : State} {lim lim' : Nat} (h : s.BitsThere lim) (hle : lim' ≤ lim) : s.BitsThere lim' :=
  h.imp_left hle.trans

theorem takeBit_of_lt {m : Memory} {n k : Nat} (hk : k < n) (gb : Addr) (tm : TruncMode) :
    takeBit m n gb tm k = some (redBit (redByte m gb k)) :=
  if_pos hk

theorem takeBit_of_ge {m : Memory} {n k : Nat} (hk : n ≤ k) (gb : Addr) (tm : TruncMode) :
    takeBit m n gb tm k = if tm = .error then none else some false := by
  unfold takeBit
  rw [if_neg (Nat.not_lt.2 hk)]
  cases tm <;> rfl

/-- `ExtractFn` finds one of the first `lim` stream bits missing. -/
def State.bitMissing (s : State) (lim : Nat) : Bool :=
  (List.range lim).any fun k => (takeBit s.mem (pixelCount s) s.gridBase s.truncMode k).isNone

theorem takeBit_isNone_iff (m : Memory) (n : Nat) (gb : Addr) (tm : TruncMode) (k : Nat) :
    (takeBit m n gb tm k).isNone = true ↔ n ≤ k ∧ tm = .error := by
  rcases Nat.lt_or_ge k n with hk | hk
  · simp [takeBit_of_lt hk, hk]
  · rw [takeBit_of_ge hk]
    split <;> simp_all

theorem bitMissing_iff (s : State) (lim : Nat) : s.bitMissing lim = true ↔ ¬s.BitsThere lim := by
  simp only [State.bitMissing, List.any_eq_true, List.mem_range, takeBit_isNone_iff, s.not_bitsThere_iff]
  exact ⟨fun ⟨_, hk, hN, hm⟩ => ⟨Nat.lt_of_le_of_lt hN hk, hm⟩, fun ⟨hN, hm⟩ => ⟨_, hN, le_rfl, hm⟩⟩

theorem streamBits_of_lt {s : State} {k : Nat} (hk : k < pixelCount s) :
    s.streamBits k = redBit (redByte s.mem s.gridBase k) := by
  rw [State.streamBits, takeBit_of_lt hk, Option.getD_some]

theorem streamBits_of_ge {s : State} {k : Nat} (hk : pixelCount s ≤ k) : s.streamBits k = false := by
  rw [State.streamBits, takeBit_of_ge hk]
  split <;> rfl

theorem bitSum_lt (f : Nat → Bool) (n : Nat) : bitSum f n < 2 ^ n := by
  induction n with
  | zero => simp [bitSum]
  | succ n ih =>
    rw [bitSum, pow_succ]
    split <;> omega

theorem lengthField_lt (s : State) : s.lengthField < 65536 := bitSum_lt _ 16

/-- `TextValid` of the payload of the stream, as a result code (41_extract R145). -/
def State.textResult (s : State) : Result :=
  if textValid s.textMode ((List.range s.lengthField).map (decodedByte s.streamBits)) then .ok
  else .invalidPayloadEncoding

/-- How many payload bytes `ExtractFn` decodes. -/
def State.decodedCount (s : State) : Nat :=
  if streamLen s.lengthField ≤ pixelCount s ∨ s.truncMode = .zeroFill then s.lengthField
  else (pixelCount s - 40) / 8

theorem extractOutcome_eq (s : State) :
    s.extractOutcome =
      if s.bitMissing 24 then (.truncatedImage, s.mem, 0, pixelCount s)
      else if bitSum s.streamBits 24 ≠ s.platform.magic.toNat then (.missingOrInvalidHeader, s.mem, 0, 24)
      else if s.bitMissing 40 then (.truncatedImage, s.mem, 0, pixelCount s)
      else if s.decodedCount < s.lengthField then
        (.truncatedImage, s.extractLoop s.decodedCount, s.lengthField, pixelCount s)
      else (s.textResult, s.extractLoop s.decodedCount, s.lengthField, streamLen s.lengthField) :=
  rfl

theorem streamLen_lengthField_le (s : State) : streamLen s.lengthField ≤ maxStream := by
  have hlen := lengthField_lt s
  simp only [maxStream, streamLen, Config.prefixBits, Config.maxLen]
  omega

section
variable {s : State}

theorem extractOutcome_noHeader (h24 : ¬s.BitsThere 24) :
    s.extractOutcome = (.truncatedImage, s.mem, 0, pixelCount s) := by
  rw [extractOutcome_eq, if_pos ((bitMissing_iff s 24).2 h24)]

theorem not_bitMissing {lim : Nat} (h : s.BitsThere lim) : ¬s.bitMissing lim = true :=
  mt (bitMissing_iff s lim).1 (not_not.2 h)

theorem extractOutcome_badHeader (h24 : s.BitsThere 24) (hmagic : ¬s.HasHeader) :
    s.extractOutcome = (.missingOrInvalidHeader, s.mem, 0, 24) := by
  rw [extractOutcome_eq, if_neg (not_bitMissing h24), if_pos (c := bitSum _ _ ≠ _) hmagic]

theorem extractOutcome_noLength (h24 : s.BitsThere 24) (hmagic : s.HasHeader) (h40 : ¬s.BitsThere 40) :
    s.extractOutcome = (.truncatedImage, s.mem, 0, pixelCount s) := by
  rw [extractOutcome_eq, if_neg (not_bitMissing h24), if_neg (c := bitSum _ _ ≠ _) (not_not.2 hmagic),
    if_pos ((bitMissing_iff s 40).2 h40)]

end

section
variable {s : State} (h40 : s.BitsThere 40) (hmagic : s.HasHeader)
include h40 hmagic

theorem extractOutcome_of_header :
    s.extractOutcome =
      if s.decodedCount < s.lengthField then
        (.truncatedImage, s.extractLoop s.decodedCount, s.lengthField, pixelCount s)
      else (s.textResult, s.extractLoop s.decodedCount, s.lengthField, streamLen s.lengthField) := by
  rw [extractOutcome_eq, if_neg (not_bitMissing (h40.mono (by decide))),
    if_neg (c := bitSum _ _ ≠ _) (not_not.2 hmagic), if_neg (not_bitMissing h40)]

theorem extractOutcome_cutOff (hT : ¬s.BitsThere (streamLen s.lengthField)) :
    s.extractOutcome =
      (.truncatedImage, s.extractLoop ((pixelCount s - 40) / 8), s.lengthField, pixelCount s) := by
  obtain ⟨hN, hm⟩ := (s.not_bitsThere_iff _).1 hT
  have hroom : 40 ≤ pixelCount s := h40.resolve_right (by simp [hm])
  have hdecoded : s.decodedCount = (pixelCount s - 40) / 8 := if_neg hT
  have hfew : (pixelCount s - 40) / 8 < s.lengthField := by
    simp only [streamLen, Config.prefixBits] at hN
    omega
  rw [extractOutcome_of_header h40 hmagic, hdecoded, if_pos hfew]

theorem extractOutcome_whole (hT : s.BitsThere (streamLen s.lengthField)) :
    s.extractOutcome = (s.textResult, s.extractLoop s.lengthField, s.lengthField, streamLen s.lengthField) := by
  have hdecoded : s.decodedCount = s.lengthField := if_pos hT
  rw [extractOutcome_of_header h40 hmagic, hdecoded, if_neg (Nat.lt_irrefl _)]

/-- Past the length field `ExtractFn` gives DECODED_LEN (41_extract R142). -/
theorem extractOutcome_declen : s.extractOutcome.2.2.1 = s.lengthField := by
  rw [extractOutcome_of_header h40 hmagic]
  split <;> rfl

end

theorem extractOutcome_declen_le (s : State) : s.extractOutcome.2.2.1 ≤ Config.maxLen := by
  have hlen := lengthField_lt s
  rw [extractOutcome_eq, Config.maxLen]
  split_ifs <;> dsimp only <;> omega

/-- The three kinds of BITPOS of `ExtractFn`: the end of the grid, the end of the header, the end of the stream. -/
theorem extractOutcome_bitpos (s : State) :
    (∃ lim ≤ maxStream, ¬s.BitsThere lim ∧ s.extractOutcome.2.2.2 = pixelCount s) ∨
      (¬s.HasHeader ∧ s.extractOutcome.2.2.2 = 24) ∨ s.extractOutcome.2.2.2 = streamLen s.lengthField := by
  by_cases h24 : s.BitsThere 24
  · by_cases hmagic : s.HasHeader
    · by_cases h40 : s.BitsThere 40
      · by_cases hT : s.BitsThere (streamLen s.lengthField)
        · exact .inr (.inr (by rw [extractOutcome_whole h40 hmagic hT]))
        · exact .inl ⟨_, streamLen_lengthField_le s, hT, by rw [extractOutcome_cutOff h40 hmagic hT]⟩
      · exact .inl ⟨40, by decide, h40, by rw [extractOutcome_noLength h24 hmagic h40]⟩
    · exact .inr (.inl ⟨hmagic, by rw [extractOutcome_badHeader h24 hmagic]⟩)
  · exact .inl ⟨24, by decide, h24, by rw [extractOutcome_noHeader h24]⟩

theorem extractOutcome_bitpos_le (s : State) : s.extractOutcome.2.2.2 ≤ maxStream := by
  rcases extractOutcome_bitpos s with ⟨lim, hlim, hmissing, hpos⟩ | ⟨-, hpos⟩ | hpos <;> rw [hpos]
  · obtain ⟨hN, -⟩ := (s.not_bitsThere_iff lim).1 hmissing
    omega
  · decide
  · exact streamLen_lengthField_le s

/-! ## The fields hold the stream bits taken so far -/

/-- The header, the length and the byte in progress hold the stream bits below `k` (41_extract R140). -/
structure ExtractFields (bits : Nat → Bool) (t : State) : Prop where
  hdr : ∀ i < 24, i < t.k → t.hdr.getLsbD i = bits i
  lenacc : ∀ i < 16, 24 + i < t.k → t.lenacc.getLsbD i = bits (24 + i)
  acc : ∀ p, ∀ i < 8, 40 + 8 * p + i < t.k → t.k ≤ 48 + 8 * p → t.acc.getLsbD i = bits (40 + 8 * p + i)

section
variable {bits : Nat → Bool} {t : State}

theorem extractFields_of_start (hk : t.k = 0) : ExtractFields bits t :=
  ⟨fun _ _ h => by omega, fun _ _ h => by omega, fun _ _ _ h => by omega⟩

/-- Placing the stream bit `k` (41_extract R140). -/
theorem ExtractFields.placeBit (h : ExtractFields bits t) {b : Bool} (hb : b = bits t.k) :
    ExtractFields bits (placeBit b t) := by
  rcases Nat.lt_or_ge t.k 24 with h24 | h24
  · rw [placeBit_of_header b h24]
    refine ⟨fun i hi (hk : i < t.k + 1) => ?_, fun i _ (hk : 24 + i < t.k + 1) => by omega,
      fun p i _ (hk : 40 + 8 * p + i < t.k + 1) => by omega⟩
    rw [getLsbD_setBit _ _ _ hi]
    split
    · next heq => rw [hb, heq]
    · next hne => exact h.hdr i hi (by omega)
  · rcases Nat.lt_or_ge t.k 40 with h40 | h40
    · rw [placeBit_of_length b h24 h40]
      refine ⟨fun i hi _ => h.hdr i hi (by omega), fun i hi (hk : 24 + i < t.k + 1) => ?_,
        fun p i _ (hk : 40 + 8 * p + i < t.k + 1) => by omega⟩
      rw [getLsbD_setBit _ _ _ hi]
      split
      · next heq => rw [hb, show 24 + i = t.k by omega]
      · next hne => exact h.lenacc i hi (by omega)
    · rw [placeBit_of_byte b h40]
      refine ⟨fun i hi _ => h.hdr i hi (by omega), fun i hi _ => h.lenacc i hi (by omega),
        fun p i hi (hk : 40 + 8 * p + i < t.k + 1) (hk' : t.k + 1 ≤ 48 + 8 * p) => ?_⟩
      rw [getLsbD_setBit _ _ _ hi]
      split
      · next heq => rw [hb, show 40 + 8 * p + i = t.k by omega]
      · next hne => exact h.acc p i hi (by omega) (by omega)

theorem ExtractFields.header (h : ExtractFields bits t) (hk : 24 ≤ t.k) : bitSum bits 24 = t.hdr.toNat :=
  bitSum_eq_toNat t.hdr fun i hi => (h.hdr i hi (by omega)).symm

theorem ExtractFields.length (h : ExtractFields bits t) (hk : 40 ≤ t.k) :
    bitSum (fun i => bits (24 + i)) 16 = t.lenacc.toNat :=
  bitSum_eq_toNat t.lenacc fun i hi => (h.lenacc i hi (by omega)).symm

theorem ExtractFields.byte (h : ExtractFields bits t) {p : Nat} (hk : t.k = 48 + 8 * p) : decodedByte bits p = t.acc :=
  decodedByte_eq t.acc fun i hi => (h.acc p i hi (by omega) (by omega)).symm

end

/-! ## What EXTRACT has decoded so far -/

section
variable (m : Memory) (pb : Addr) (bits : Nat → Bool)

/-- Writing the decoded bytes changes no byte but payload bytes (41_extract R149). -/
theorem extractWritten_read_of_ne {n : Nat} {a : Addr} (h : ∀ i < n, a ≠ payAddrAt pb i) :
    (extractWritten m pb bits n).read a.toNat = m.read a.toNat := by
  induction n with
  | zero => rfl
  | succ n ih =>
    have hne : a.toNat ≠ (payAddrAt pb n).toNat := mt BitVec.eq_of_toNat_eq (h n (Nat.lt_succ_self n))
    rw [extractWritten, Memory.read_write_ne _ _ hne]
    exact ih fun i hi => h i (Nat.lt_succ_of_lt hi)

end

/-- EXTRACT in `t` holds the stream bits of `ExtractFn` below `k` and has decoded its first `n` payload bytes. -/
structure ExtractDecoded (s t : State) (n : Nat) : Prop where
  fields : ExtractFields s.streamBits t
  dec : t.dec = (List.range n).map (decodedByte s.streamBits)
  mem : t.mem = s.extractLoop n

/-- The payload bytes of `ExtractFn` go over none of the red bytes that EXTRACT reads (20_memory R83). -/
def State.OutputApart (s : State) : Prop :=
  NoOverlap s.gridBase s.payloadBase s.extractOutcome.2.2.1
    (min (pixelCount s) (streamLen s.extractOutcome.2.2.1))

section
variable {s t : State} (hl : ExtractLatched s t) (hf : ExtractFields s.streamBits t)
include hl

theorem ExtractLatched.bitsThere (hpixel : t.sTM = .error → t.k ≤ t.sN) : s.BitsThere t.k := by
  rw [hl.sTM, hl.sN] at hpixel
  by_contra hmissing
  obtain ⟨hN, hm⟩ := (s.not_bitsThere_iff _).1 hmissing
  exact absurd (hpixel hm) (Nat.not_le.2 hN)

include hf

theorem ExtractLatched.hasHeader_iff (hk : 24 ≤ t.k) : s.HasHeader ↔ t.hdr = t.platform.magic := by
  rw [State.HasHeader, hf.header hk, hl.platform, BitVec.toNat_eq]

end

section
variable {s t : State} (h : QuietExtract s t) (hp : t.phase = .xBits)
include h hp

theorem QuietExtract.k_bitsThere : s.BitsThere t.k := by
  have hphase := h.phaseInv
  simp only [State.PhaseInv, hp] at hphase
  exact h.latched.bitsThere hphase.1

variable {n : Nat} (hd : ExtractDecoded s t n)
include hd

theorem QuietExtract.hasHeader (hk : 24 ≤ t.k) : s.HasHeader := by
  have hphase := h.phaseInv
  simp only [State.PhaseInv, hp] at hphase
  obtain ⟨-, hhdr, -⟩ := hphase
  exact (h.latched.hasHeader_iff hd.fields hk).2 (hhdr hk)

/-- Past the length field DECODED_LEN is that of the stream, and the stream is not at its end. -/
theorem QuietExtract.decodedLen (hk : 40 ≤ t.k) :
    t.decodedLen.toNat = s.lengthField ∧ t.k < streamLen s.lengthField := by
  have hphase := h.phaseInv
  simp only [State.PhaseInv, hp] at hphase
  obtain ⟨-, -, -, hlate⟩ := hphase
  obtain ⟨hlen, hT, -⟩ := hlate hk
  have hfield : s.lengthField = t.decodedLen.toNat := hlen ▸ hd.fields.length hk
  exact ⟨hfield.symm, hfield ▸ hT⟩

/-- Past the length field the length of the stream is that of `ExtractFn`. -/
theorem QuietExtract.outcome_declen (hk : 40 ≤ t.k) : s.extractOutcome.2.2.1 = s.lengthField :=
  extractOutcome_declen ((h.k_bitsThere hp).mono hk) (h.hasHeader hp hd (by omega))

end

section
variable {s t : State} (h : QuietExtract s t) (hp : t.phase = .xBits) (hd : ExtractDecoded s t ((t.k - 40) / 8))
include h hp hd

/-- The bit a step takes is that of `ExtractFn`: the red byte of pixel `k` is as it was at the start. -/
theorem QuietExtract.takenBit (hapart : s.OutputApart) : t.takenBit = s.streamBits t.k := by
  unfold State.takenBit
  rw [h.latched.sN]
  split
  · next hN =>
    have hsame : redByte t.mem t.sGB t.k = redByte s.mem s.gridBase t.k := by
      rw [redByte, redByte, h.latched.sGB, hd.mem]
      refine extractWritten_read_of_ne _ _ _ fun i hi => ?_
      have h40 : 40 ≤ t.k := by omega
      obtain ⟨-, hT⟩ := h.decodedLen hp hd h40
      rw [State.OutputApart, h.outcome_declen hp hd h40] at hapart
      refine (hapart i ?_ t.k (lt_min hN hT)).symm
      simp only [streamLen, Config.prefixBits] at hT
      omega
    rw [streamBits_of_lt hN, hsame]
  · next hN => rw [streamBits_of_ge (not_lt.1 hN)]

/-- Where a bit can be taken, it is before the BITPOS of `ExtractFn`. -/
theorem QuietExtract.k_lt_bitpos (hbit : t.CanTake) : t.k < s.extractOutcome.2.2.2 := by
  rcases extractOutcome_bitpos s with ⟨lim, -, hmissing, hpos⟩ | ⟨hmagic, hpos⟩ | hpos <;> rw [hpos]
  · obtain ⟨-, hm⟩ := (s.not_bitsThere_iff lim).1 hmissing
    rw [← h.latched.sN]
    exact hbit.pixel (h.latched.sTM.trans hm)
  · by_contra hk
    exact hmagic (h.hasHeader hp hd (not_lt.1 hk))
  · by_cases hk : 40 ≤ t.k
    · exact (h.decodedLen hp hd hk).2
    · simp only [streamLen, Config.prefixBits]
      omega

end

/-! ## The ends of EXTRACT are those of `ExtractFn` -/

/-- A finished EXTRACT has the result, the memory, DECODED_LEN and BITPOS of `ExtractFn`. -/
structure ExtractFinished (s t : State) : Prop where
  done : t.done = true
  outcome : (t.result, t.mem, t.decodedLen.toNat, t.k) = s.extractOutcome

/-- How far EXTRACT has come along `ExtractFn`. -/
def ExtractProgress (s t : State) : Prop :=
  match t.phase with
  | .idle => ExtractFinished s t
  | .xBits => ExtractDecoded s t ((t.k - 40) / 8)
  | .eLen | .eScan | .eCap | .eWrite => False

theorem State.Quiet.extractFinished {s t : State} (hq : t.Quiet) {r : Result}
    (hout : s.extractOutcome = (r, t.mem, t.decodedLen.toNat, t.k)) : ExtractFinished s (Machine.finish r t) where
  done := rfl
  outcome := by rw [hout, hq.finish_mem]; rfl

/-- The end at a missing pixel, in the header, in the length, or in the payload (41_extract R138). -/
theorem QuietExtract.finished_truncated {s t : State} (h : QuietExtract s t) (hp : t.phase = .xBits)
    (hd : ExtractDecoded s t ((t.k - 40) / 8)) (hN : t.sN ≤ t.k) (hm : t.sTM = .error) :
    ExtractFinished s (finish .truncatedImage t) := by
  refine h.quiet.extractFinished ?_
  have hphase := h.phaseInv
  simp only [State.PhaseInv, hp] at hphase
  obtain ⟨hpixel, -, hearly, -⟩ := hphase
  have hk : t.k = pixelCount s := h.latched.sN ▸ le_antisymm (hpixel hm) hN
  have hmissing : ∀ {lim : Nat}, t.k < lim → ¬s.BitsThere lim := fun hlim =>
    (s.not_bitsThere_iff _).2 ⟨hk ▸ hlim, h.latched.sTM ▸ hm⟩
  have hthere := h.k_bitsThere hp
  have hmem := hd.mem
  by_cases h40 : 40 ≤ t.k
  · have hmagic := h.hasHeader hp hd (by omega)
    obtain ⟨hlen, hT⟩ := h.decodedLen hp hd h40
    rw [extractOutcome_cutOff (hthere.mono h40) hmagic (hmissing hT), hmem, hlen, hk]
  · have hnone : (t.k - 40) / 8 = 0 := by omega
    obtain ⟨hlen, -⟩ := hearly (not_le.1 h40)
    rw [hnone] at hmem
    by_cases h24 : 24 ≤ t.k
    · rw [extractOutcome_noLength (hthere.mono h24) (h.hasHeader hp hd h24) (hmissing (not_le.1 h40)), hmem, hlen, hk]
      rfl
    · rw [extractOutcome_noHeader (hmissing (not_le.1 h24)), hmem, hlen, hk]
      rfl

theorem textValid_nil (xm : TextMode) : textValid xm [] = true := by
  cases xm <;> rfl

section
variable {s u : State} (hl : ExtractLatched s u) (hu : u.BitPlaced)
include hl hu

/-- The whole stream has been taken when as many bits as it has are placed. -/
theorem ExtractLatched.outcome_whole (hf : ExtractFields s.streamBits u) (hk : 40 ≤ u.k)
    (hT : u.k = streamLen u.lenacc.toNat) :
    s.extractOutcome =
      (if textValid u.sXM ((List.range u.lenacc.toNat).map (decodedByte s.streamBits)) then .ok
        else .invalidPayloadEncoding, s.extractLoop u.lenacc.toNat, u.lenacc.toNat, u.k) := by
  have hthere := hl.bitsThere hu.pixel
  have hmagic := (hl.hasHeader_iff hf (by omega)).2 (hu.hdr (by omega))
  have hlen : s.lengthField = u.lenacc.toNat := hf.length hk
  rw [extractOutcome_whole (hthere.mono hk) hmagic (by rwa [hlen, ← hT]), State.textResult, hlen, hl.sXM, ← hT]

variable (hq : u.Quiet)
include hq

theorem ExtractLatched.finished_badHeader (hd : ExtractDecoded s u ((u.k - 41) / 8)) (hk : u.k = 24)
    (hmagic : u.hdr ≠ u.platform.magic) : ExtractFinished s (finish .missingOrInvalidHeader u) := by
  have hno : ¬s.HasHeader := mt (hl.hasHeader_iff hd.fields hk.ge).1 hmagic
  obtain ⟨hlen, -⟩ := hu.early (by omega)
  have hmem := hd.mem
  rw [hk] at hmem
  refine hq.extractFinished ?_
  rw [extractOutcome_badHeader (hk ▸ hl.bitsThere hu.pixel) hno, hmem, hlen, hk]
  rfl

theorem ExtractLatched.finished_noPayload (hd : ExtractDecoded s u ((u.k - 41) / 8)) (hk : u.k = 40)
    (hlen : u.lenacc = 0) : ExtractFinished s (finish .ok { u with decodedLen := u.lenacc }) := by
  have hmem := hd.mem
  rw [hk] at hmem
  have hT : u.k = streamLen u.lenacc.toNat := by rw [hk, hlen]; rfl
  have hzero : u.lenacc.toNat = 0 := by rw [hlen]; rfl
  refine State.Quiet.extractFinished (t := { u with decodedLen := u.lenacc }) hq ?_
  rw [hl.outcome_whole hu hd.fields hk.ge hT, hzero, List.range_zero, List.map_nil, textValid_nil, hmem]
  rfl

end

/-- Writing and appending payload byte `p` is the next turn of the loop of `ExtractFn`. -/
theorem ExtractDecoded.byteDecoded {s u : State} {p : Nat} (hd : ExtractDecoded s u p) (hl : ExtractLatched s u)
    (hq : u.Quiet) (hk : u.k = 48 + 8 * p) : ExtractDecoded s (u.byteDecoded p) (p + 1) := by
  have hbyte := hd.fields.byte hk
  rw [hq.byteDecoded_eq]
  refine ⟨⟨hd.fields.hdr, hd.fields.lenacc, hd.fields.acc⟩, ?_, ?_⟩
  · show u.dec ++ [u.acc] = _
    rw [List.range_succ, List.map_append, ← hd.dec, List.map_singleton, hbyte]
  · show u.mem.write _ _ = _
    rw [payAddr, hl.sPB, hd.mem, ← hbyte]
    rfl

/-- The end after the last payload byte, with the text check (41_extract R145). -/
theorem ExtractLatched.finished_lastByte {s u : State} {p : Nat} (hl : ExtractLatched s u) (hu : u.BitPlaced)
    (hq : u.Quiet) (hd : ExtractDecoded s u p) (hk : u.k = 48 + 8 * p) (hT : u.k = streamLen u.decodedLen.toNat) :
    ExtractFinished s (extractEnd (u.byteDecoded p)) := by
  obtain ⟨hfield, -⟩ := hu.late (by omega)
  have hlen : u.decodedLen.toNat = p + 1 := by
    simp only [streamLen, Config.prefixBits] at hT
    omega
  have hd' := hd.byteDecoded hl hq hk
  refine (hq.byteDecoded p).extractFinished ?_
  rw [hl.outcome_whole hu hd.fields (by omega) (hfield ▸ hT), hfield, hlen, ← hd'.dec, ← hd'.mem]
  show _ = (_, _, u.decodedLen.toNat, _)
  rw [hlen]
  rfl

/-- Each act after a bit is that of `ExtractFn`. -/
theorem ExtractActed.progress {s u v : State} (hact : ExtractActed u v) (hl : ExtractLatched s u) (hu : u.BitPlaced)
    (hq : u.Quiet) (hd : ExtractDecoded s u ((u.k - 41) / 8)) : ExtractProgress s v := by
  have hp := hu.phase
  have hbefore : ∀ {p : Nat}, u.k = 48 + 8 * p → (u.k - 41) / 8 = p := by omega
  have hafter : ∀ {p : Nat}, u.k = 48 + 8 * p → (u.k - 40) / 8 = p + 1 := by omega
  cases hact with
  | badHeader hk hmagic => exact hl.finished_badHeader hu hq hd hk hmagic
  | noPayload hk hlen => exact hl.finished_noPayload hu hq hd hk hlen
  | lengthOk hk hlen =>
    have hd' : ExtractDecoded s { u with decodedLen := u.lenacc } ((u.k - 41) / 8) :=
      ⟨⟨hd.fields.hdr, hd.fields.lenacc, hd.fields.acc⟩, hd.dec, hd.mem⟩
    rw [hk] at hd'
    simpa only [ExtractProgress, hp, hk] using hd'
  | bit hmagic h40 hmid =>
    have hsame : (u.k - 41) / 8 = (u.k - 40) / 8 := by omega
    simpa only [ExtractProgress, hp, hsame] using hd
  | @byte p hk =>
    rw [hbefore hk] at hd
    have hp' : (u.byteDecoded p).phase = .xBits := hp
    have hk' : ((u.byteDecoded p).k - 40) / 8 = p + 1 := hafter hk
    simpa only [ExtractProgress, hp', hk'] using hd.byteDecoded hl hq hk
  | lastByte hk hT =>
    rw [hbefore hk] at hd
    exact hl.finished_lastByte hu hq hd hk hT

@[simp] theorem placeBit_dec (b : Bool) (s : State) : (placeBit b s).dec = s.dec := by
  unfold placeBit
  split
  · rfl
  · split <;> rfl

theorem extractProgress_startExtract (s : State) : ExtractProgress s (startExtract s) := by
  have hnone : ((startExtract s).k - 40) / 8 = 0 := by simp
  show ExtractDecoded s (startExtract s) (((startExtract s).k - 40) / 8)
  rw [hnone]
  exact ⟨extractFields_of_start rfl, rfl, rfl⟩

/-- A turn of an undisturbed EXTRACT goes along `ExtractFn`. -/
theorem ExtractTurn.progress {s t v : State} (hapart : s.OutputApart) (h : QuietExtract s t) (hturn : ExtractTurn t v)
    (hprog : ExtractProgress s t) : ExtractProgress s v := by
  cases hturn with
  | none => exact hprog
  | truncated hp hN hm =>
    simp only [ExtractProgress, hp] at hprog
    exact h.finished_truncated hp hprog hN hm
  | taken hp hbit hact =>
    simp only [ExtractProgress, hp] at hprog
    obtain ⟨hmem, -, -⟩ := placeBit_frame t.takenBit t
    have hdec : t.bitTaken.dec = t.dec := placeBit_dec _ _
    have hk : (t.bitTaken.k - 41) / 8 = (t.k - 40) / 8 := by
      rw [State.bitTaken, placeBit_k, Nat.add_sub_add_right t.k 1 40]
    refine hact.progress (h.latched.placeBit _) (h.bitPlaced hp hbit) (h.quiet.placeBit _) ?_
    rw [hk]
    exact ⟨hprog.fields.placeBit (h.takenBit hp hprog hapart), hdec.trans hprog.dec, hmem.trans hprog.mem⟩

/-- The bytes that EXTRACT accesses along `ExtractFn` are backed, and the payload bytes lie over none of the red bytes:
what software must see to (20_memory R73, R83). -/
structure State.ExtractReady (s : State) : Prop where
  redBacked : ∀ p < s.extractOutcome.2.2.2, p < pixelCount s → backed s (redAddrAt s.gridBase p) = true
  payBacked : ∀ i < s.extractOutcome.2.2.1, backed s (payAddrAt s.payloadBase i) = true
  apart : s.OutputApart

/-- What a step of EXTRACT accesses: the red byte of pixel `k`, and the payload byte it completes (41_extract R137). -/
theorem mem_engineAccesses_of_xBits {t : State} (hp : t.phase = .xBits) {a : Addr} (ha : a ∈ engineAccesses t) :
    t.CanTake ∧ ((t.k < t.sN ∧ a = redAddr t t.k) ∨ ∃ p, t.k + 1 = 48 + 8 * p ∧ a = payAddr t p) := by
  have hpay : a ∈ (completeByte (t.k + 1)).toList.map (payAddr t) → ∃ p, t.k + 1 = 48 + 8 * p ∧ a = payAddr t p := by
    intro ha
    obtain ⟨p, hc, rfl⟩ := List.mem_map.1 ha
    exact ⟨p, completeByte_eq_some (Option.mem_toList.1 hc), rfl⟩
  simp only [engineAccesses, hp] at ha
  split at ha
  · next hN => exact ⟨.inl hN, (List.mem_cons.1 ha).imp (fun ha => ⟨hN, ha⟩) hpay⟩
  · split at ha
    · cases ha
    · next hm => exact ⟨.inr hm, .inr (hpay ha)⟩

theorem ExtractProgress.accesses_backed {s t : State} (hready : s.ExtractReady) (h : QuietExtract s t)
    (hprog : ExtractProgress s t) (hp : t.phase = .xBits) : ∀ a ∈ engineAccesses t, backed s a = true := by
  intro a ha
  simp only [ExtractProgress, hp] at hprog
  obtain ⟨hbit, ⟨hN, rfl⟩ | ⟨p, hk, rfl⟩⟩ := mem_engineAccesses_of_xBits hp ha
  · rw [redAddr, h.latched.sGB]
    exact hready.redBacked _ (h.k_lt_bitpos hp hprog hbit) (h.latched.sN ▸ hN)
  · obtain ⟨-, hT⟩ := h.decodedLen hp hprog (by omega)
    rw [payAddr, h.latched.sPB]
    refine hready.payBacked _ ?_
    rw [h.outcome_declen hp hprog (by omega)]
    simp only [streamLen, Config.prefixBits] at hT
    omega

/-- An undisturbed EXTRACT ends with what `ExtractFn` gives, after as many steps as its BITPOS tells. -/
theorem extract_finished {s : State} (hrst : s.rst = false) (hq : s.Quiet) (hready : s.ExtractReady) :
    ∃ n : Nat, (runEngine n (startExtract s)).phase = .idle ∧ ExtractFinished s (runEngine n (startExtract s)) ∧
      n = s.extractOutcome.2.2.2 + (if s.extractOutcome.1 = .truncatedImage then 1 else 0) := by
  have hprog := quietExtract_induction hq (extractProgress_startExtract s) fun _ _ h hturn =>
    hturn.progress hready.apart h
  have hfree : s.ExtractFree := fun n =>
    (hprog n).1.not_stuck fun hp => (hprog n).2.accesses_backed hready (hprog n).1 hp
  obtain ⟨n, -, -, hidle, hn⟩ := extract_ends hrst hfree
  have hfinished : ExtractFinished s (runEngine n (startExtract s)) := by
    simpa only [ExtractProgress, hidle] using (hprog n).2
  refine ⟨n, hidle, hfinished, ?_⟩
  rw [← hfinished.outcome]
  exact hn

/-- With a backed footprint the bytes along `ExtractFn` are backed (70_reset_and_hazards R219). -/
theorem extractReady_of_footprintBacked {s : State} (hbacked : (startExtract s).FootprintBacked)
    (hapart : s.OutputApart) : s.ExtractReady where
  redBacked := fun _ hp hN =>
    hbacked _ (inFootprint_redAddr_of_extract (s := startExtract s) rfl hN
      (Nat.lt_of_lt_of_le hp (extractOutcome_bitpos_le s)))
  payBacked := fun _ hi =>
    hbacked _ (inFootprint_payAddr_of_extract (s := startExtract s) rfl
      (Nat.lt_of_lt_of_le hi (extractOutcome_declen_le s)))
  apart := hapart

/-- Settles O58: each step of EXTRACT goes along `ExtractFn`. -/
theorem extractComputesExtractFn : Obligations.ExtractComputesExtractFn := by
  unfold Obligations.ExtractComputesExtractFn
  intro s hrst hq hbacked count fn hapart
  obtain ⟨n, hidle, hfinished, -⟩ := extract_finished hrst hq (extractReady_of_footprintBacked hbacked hapart)
  exact ⟨n, hidle, hfinished.done, hfinished.outcome⟩

end Sys2Proof.Machine

/-! PROOFS. Missing pixels and grids of zeros in EXTRACT (spec/41_extract.md R138, R139, R153), and the round trip
through EMBED and EXTRACT (R152). -/

namespace Sys2Proof.Machine

open Sys2Proof

/-! ## Missing pixels -/

/-- Where the grid has no pixel `k`, ERROR mode ends EXTRACT with no access (41_extract R138). -/
theorem engineTurn_of_missing {s : State} (hrst : s.rst = false) (hp : s.phase = .xBits) (hN : s.sN ≤ s.k)
    (hm : s.sTM = .error) : engineAccesses s = [] ∧ engineTurn s = finish .truncatedImage s := by
  have hnone : engineAccesses s = [] := by simp [engineAccesses, hp, Nat.not_lt.2 hN, hm]
  refine ⟨hnone, ?_⟩
  rw [engineTurn_of_backed hrst (by simp [hnone]), engineStep, hp]
  exact extractBits_of_missing hN hm

/-- In ZERO_FILL mode no turn of EXTRACT gives code 6 (41_extract R139). -/
theorem engineTurn_result_of_zeroFill {s : State} (hp : s.phase = .xBits) (hm : s.sTM = .zeroFill)
    (hresult : s.result ≠ .truncatedImage) : (engineTurn s).result ≠ .truncatedImage := by
  rcases engineTurn_cases s with heq | ⟨-, -, -, heq⟩ <;> rw [heq]
  · exact hresult
  · rw [engineStep, hp]
    rcases extractBits_cases s with ⟨hno, -⟩ | ⟨-, b, c, hact⟩
    · exact absurd (.inr hm) hno
    · rw [hact]
      exact (extractAct_cases _).result (by simpa using hresult)

/-- Where the grid has no pixel `k`, ZERO_FILL mode takes the bit 0 and reads no red byte (41_extract R139). -/
theorem engineTurn_of_filled {s : State} (hrst : s.rst = false) (hstuck : engineStuck s = false) (hp : s.phase = .xBits)
    (hN : s.sN ≤ s.k) (hm : s.sTM = .zeroFill) :
    (∀ a ∈ engineAccesses s, a = payAddr s ((s.k - 40) / 8)) ∧ engineTurn s = extractAct (placeBit false s) := by
  refine ⟨fun a ha => ?_, ?_⟩
  · obtain ⟨-, ⟨hlt, -⟩ | ⟨p, hk, rfl⟩⟩ := mem_engineAccesses_of_xBits hp ha
    · exact absurd hlt (Nat.not_lt.2 hN)
    · rw [show p = (s.k - 40) / 8 by omega]
  · simp only [engineTurn, hrst, hstuck, engineStep, hp]
    exact extractBits_of_filled hN hm

/-- A header of 24 zero bits is not P_MAGIC, which is not 0 (41_extract R153, 00_scope R9). -/
theorem not_hasHeader_of_zeros {s : State} (hmagic : s.MagicNotZero) (hzero : ∀ k < 24, s.streamBits k = false) :
    ¬s.HasHeader := by
  intro hheader
  have hsum : bitSum s.streamBits 24 = (0x000000#24).toNat := bitSum_eq_toNat _ fun k hk => by simp [hzero k hk]
  exact hmagic (BitVec.eq_of_toNat_eq (hheader.symm.trans hsum))

/-- An EXTRACT that takes 24 zero bits ends after 24 steps with code 4: `ExtractFn` reads no pixel past the header and
writes no byte (41_extract R153). -/
theorem extract_zeros {s : State} (hrst : s.rst = false) (hq : s.Quiet) (hmagic : s.MagicNotZero)
    (hthere : s.BitsThere 24)
    (hgrid : ∀ p < 24, p < pixelCount s →
      backed s (redAddrAt s.gridBase p) = true ∧ redBit (redByte s.mem s.gridBase p) = false) :
    s.extractOutcome = (.missingOrInvalidHeader, s.mem, 0, 24) ∧ (runEngine 24 (startExtract s)).phase = .idle ∧
      ExtractFinished s (runEngine 24 (startExtract s)) := by
  have hzero : ∀ k < 24, s.streamBits k = false := by
    intro k hk
    rcases Nat.lt_or_ge k (pixelCount s) with hlt | hge
    · rw [streamBits_of_lt hlt]
      exact (hgrid k hk hlt).2
    · exact streamBits_of_ge hge
  have hout := extractOutcome_badHeader hthere (not_hasHeader_of_zeros hmagic hzero)
  have hready : s.ExtractReady :=
    { redBacked := fun p hp hlt => (hgrid p (by rwa [hout] at hp) hlt).1
      payBacked := fun i hi => by
        rw [hout] at hi
        exact absurd hi (Nat.not_lt_zero i)
      apart := fun i hi => by
        rw [hout] at hi
        exact absurd hi (Nat.not_lt_zero i) }
  obtain ⟨n, hidle, hfinished, hn⟩ := extract_finished hrst hq hready
  rw [hout] at hn
  obtain rfl : n = 24 := hn
  exact ⟨hout, hidle, hfinished⟩

/-- An asserted `rst` leaves no operation running (70_reset_and_hazards R210). -/
theorem State.Inv.rst_of_xBits {s : State} (h : s.Inv) (hp : s.phase = .xBits) : s.rst = false := by
  by_contra hasserted
  have hidle := ((State.inv_iff_parts.1 h).of_rst (by simpa using hasserted)).idle
  rw [hp] at hidle
  cases hidle

/-- Settles O22: the turns at a missing pixel in the two modes, and `ExtractFn` of 24 zero bits. -/
theorem missingPixelsFollowTheTruncationMode : Obligations.MissingPixelsFollowTheTruncationMode := by
  unfold Obligations.MissingPixelsFollowTheTruncationMode
  refine ⟨fun s hinv hp hm hN => ?_, fun s hp hm hresult => ?_, ?_⟩
  · have hphase := hinv.phaseInv
    simp only [State.PhaseInv, hp] at hphase
    obtain ⟨hpixel, -⟩ := hphase
    obtain ⟨hnone, hturn⟩ := engineTurn_of_missing (hinv.rst_of_xBits hp) hp hN hm
    refine ⟨hnone, hturn, ?_, fun hraces => ?_⟩ <;> rw [hturn]
    · exact le_antisymm (hpixel hm) hN
    · rw [finish_mem, settle_of_no_races hraces]
  · exact ⟨engineTurn_result_of_zeroFill hp hm hresult, fun hN hrst hstuck => engineTurn_of_filled hrst hstuck hp hN hm⟩
  · intro s hrst hq hmagic hthere hgrid t
    obtain ⟨hout, hidle, hdone, houtcome⟩ := extract_zeros hrst hq hmagic hthere hgrid
    simp only [hout, Prod.mk.injEq] at houtcome
    obtain ⟨hresult, hmem, hlen, hk⟩ := houtcome
    exact ⟨hidle, hdone, hresult, hk, BitVec.eq_of_toNat_eq hlen, hmem⟩

/-! ## The round trip -/

/-- In `t` the stream bits are those EMBED writes for the payload bytes `pay`, the grid has them all, and the payload is
ASCII (30_encoding R92, 40_embed R117). -/
structure State.CarriesPayload (t : State) (len : Nat) (pay : Nat → Byte) : Prop where
  len_le : len ≤ Config.maxLen
  room : streamLen len ≤ pixelCount t
  bits : ∀ k < streamLen len, t.streamBits k = streamBit t.platform.magic (BitVec.ofNat 16 len) pay k
  ascii : ∀ i < len, (pay i).toNat < 0x80

theorem lt_streamLen_of_lt_40 {k : Nat} (hk : k < 40) (len : Nat) : k < streamLen len :=
  Nat.lt_of_lt_of_le hk (Nat.le_add_right _ _)

section
variable {t : State} {len : Nat} {pay : Nat → Byte} (h : t.CarriesPayload len pay)
include h

theorem State.CarriesPayload.hasHeader : t.HasHeader :=
  bitSum_eq_toNat t.platform.magic fun k hk => by
    rw [h.bits k (lt_streamLen_of_lt_40 (by omega) len), streamBit_header _ _ _ hk]

theorem State.CarriesPayload.lengthField : t.lengthField = len := by
  have hfits : (BitVec.ofNat 16 len).toNat = len := by
    have hlen := h.len_le
    rw [Config.maxLen] at hlen
    rw [BitVec.toNat_ofNat, Nat.mod_eq_of_lt (by omega)]
  refine (bitSum_eq_toNat (BitVec.ofNat 16 len) fun i hi => ?_).trans hfits
  rw [h.bits _ (lt_streamLen_of_lt_40 (by omega) len), streamBit_length _ _ _ hi]

theorem State.CarriesPayload.decodedByte {n : Nat} (hn : n < len) : decodedByte t.streamBits n = pay n :=
  decodedByte_eq _ fun i hi => by
    have hk : 40 + 8 * n + i < streamLen len := by
      simp only [streamLen, Config.prefixBits]
      omega
    rw [h.bits _ hk, streamBit_payload _ _ _ n hi]

/-- The text check passes in either mode, as the payload is ASCII. -/
theorem State.CarriesPayload.textResult : t.textResult = .ok := by
  refine if_pos (textValid_of_ascii _ fun b hb => ?_)
  obtain ⟨n, hn, rfl⟩ := List.mem_map.1 hb
  rw [List.mem_range, h.lengthField] at hn
  rw [h.decodedByte hn]
  exact h.ascii n hn

theorem State.CarriesPayload.extractOutcome : t.extractOutcome = (.ok, t.extractLoop len, len, streamLen len) := by
  have hthere : t.BitsThere (streamLen t.lengthField) := .inl (h.lengthField.symm ▸ h.room)
  rw [extractOutcome_whole (hthere.mono (Nat.le_add_right _ _)) h.hasHeader hthere, h.textResult, h.lengthField]

end

theorem extractWritten_wf {m : Memory} (hm : m.wf = true) (pb : Addr) (bits : Nat → Bool) (n : Nat) :
    (extractWritten m pb bits n).wf = true := by
  induction n with
  | zero => exact hm
  | succ n ih => exact Memory.wf_write _ _ ih

/-- The output buffer holds the decoded bytes after `n` turns of the loop of `ExtractFn`, as its bytes are distinct. -/
theorem payloadByte_extractWritten {m : Memory} (hm : m.wf = true) (pb : Addr) (bits : Nat → Bool) {n : Nat}
    (hn : n ≤ Config.maxLen) {i : Nat} (hi : i < n) :
    payloadByte (extractWritten m pb bits n) pb i = decodedByte bits i := by
  induction n with
  | zero => exact absurd hi (Nat.not_lt_zero i)
  | succ n ih =>
    rw [extractWritten, payloadByte]
    rcases Nat.lt_succ_iff_lt_or_eq.1 hi with hlt | rfl
    · obtain ⟨-, -, -, hinj⟩ := engineAddressesWrapAndAreDistinct
      have hne : payAddrAt pb i ≠ payAddrAt pb n := mt (hinj pb i n (hi.trans_le hn) hn) (Nat.ne_of_lt hlt)
      rw [Memory.read_write_ne _ _ (mt BitVec.eq_of_toNat_eq hne)]
      exact ih (Nat.le_of_succ_le hn) hlt
    · exact Memory.read_write_same _ _ (extractWritten_wf hm pb bits i)

/-- An EMBED that passes its checks and whose payload lies over no red byte leaves the stream in the red bits
(40_embed R116, R121). -/
theorem embed_leaves_stream {s : State} (hrst : s.rst = false) (hq : s.Quiet) (hbacked : (startEmbed s).FootprintBacked)
    (hlen : s.payloadLen.toNat ≤ Config.maxLen)
    (hascii : ∀ i < s.payloadLen.toNat, (payloadByte s.mem s.payloadBase i).toNat < 0x80)
    (hroom : streamLen s.payloadLen.toNat ≤ pixelCount s) (hapart : s.PayloadApart) (hwf : s.mem.wf = true) :
    ∃ n : Nat, (runEngine n (startEmbed s)).phase = .idle ∧ (runEngine n (startEmbed s)).result = .ok ∧
      ∀ p < streamLen s.payloadLen.toNat,
        redBit (redByte (runEngine n (startEmbed s)).mem s.gridBase p) =
          streamBit s.platform.magic (BitVec.ofNat 16 s.payloadLen.toNat) (payloadByte s.mem s.payloadBase) p := by
  obtain ⟨n, hidle, hfinished⟩ := embed_finished hrst hq hbacked
  have hno : hasNonAscii s.mem s.payloadBase s.payloadLen.toNat = false := by
    rw [← Bool.not_eq_true, hasNonAscii_eq_true_iff]
    rintro ⟨i, hi, hb⟩
    exact absurd (hascii i hi) (Nat.not_lt.2 hb)
  have hout := embedOutcome_ok s hlen hno hroom
  have hrest := hfinished.rest fun _ => hapart
  rw [hout] at hrest
  obtain ⟨hmem, -⟩ := Prod.mk.inj hrest
  refine ⟨n, hidle, by rw [hfinished.result, hout], fun p hp => ?_⟩
  have hmax : streamLen s.payloadLen.toNat ≤ maxStream := by
    simp only [maxStream, streamLen, Config.prefixBits]
    omega
  rw [hmem, State.embedLoop, redByte_embedWritten _ _ _ _ hwf hmax hp, redBit_newRed]

/-- An undisturbed EXTRACT of a stream gives back its payload (41_extract R152). -/
theorem State.CarriesPayload.extract_gives_payload {t : State} {len : Nat} {pay : Nat → Byte}
    (h : t.CarriesPayload len pay) (hrst : t.rst = false) (hq : t.Quiet) (hwf : t.mem.wf = true)
    (hred : ∀ p < streamLen len, backed t (redAddrAt t.gridBase p) = true)
    (hpay : ∀ i < len, backed t (payAddrAt t.payloadBase i) = true)
    (hapart : NoOverlap t.gridBase t.payloadBase len (streamLen len)) :
    ∃ n : Nat, (runEngine n (startExtract t)).phase = .idle ∧ (runEngine n (startExtract t)).result = .ok ∧
      (runEngine n (startExtract t)).decodedLen.toNat = len ∧
      ∀ i < len, payloadByte (runEngine n (startExtract t)).mem t.payloadBase i = pay i := by
  have hout := h.extractOutcome
  have hready : t.ExtractReady :=
    { redBacked := fun p hp _ => hred p (by rwa [hout] at hp)
      payBacked := fun i hi => hpay i (by rwa [hout] at hi)
      apart := by
        rw [State.OutputApart, hout, Nat.min_eq_right h.room]
        exact hapart }
  obtain ⟨n, hidle, ⟨-, houtcome⟩, -⟩ := extract_finished hrst hq hready
  simp only [hout, Prod.mk.injEq] at houtcome
  obtain ⟨hresult, hmem, hlen, -⟩ := houtcome
  refine ⟨n, hidle, hresult, hlen, fun i hi => ?_⟩
  rw [hmem, State.extractLoop, payloadByte_extractWritten hwf _ _ h.len_le hi, h.decodedByte hi]

/-- Settles O60: EMBED leaves the stream in the red bits, and EXTRACT of it gives back the payload. -/
theorem roundTripGivesBackThePayload : Obligations.RoundTripGivesBackThePayload := by
  unfold Obligations.RoundTripGivesBackThePayload
  intro s hrst hq hbacked len hlen hascii hroom hapart hwf
  obtain ⟨n, hidle, hresult, hstream⟩ := embed_leaves_stream hrst hq hbacked hlen hascii hroom hapart hwf
  refine ⟨n, hidle, hresult, ?_⟩
  intro t hrst' hq' hwf' hplatform hwidth hheight hgrid hkept hred hpay hapart'
  have hN : pixelCount t = pixelCount s := by rw [pixelCount, pixelCount, hwidth, hheight]
  have hroom' : streamLen len ≤ pixelCount t := hN ▸ hroom
  have hcarries : t.CarriesPayload len (payloadByte s.mem s.payloadBase) :=
    { len_le := hlen
      room := hroom'
      bits := fun k hk => by
        rw [streamBits_of_lt (Nat.lt_of_lt_of_le hk hroom'), hgrid, hkept k hk, hstream k hk, hplatform]
      ascii := hascii }
  rw [← hgrid] at hred hapart'
  exact hcarries.extract_gives_payload hrst' hq' hwf' hred hpay hapart'

end Sys2Proof.Machine

/-! PROOFS. What the host does (spec/42_host_access.md): the register accesses (R165 to R168), the command decoder
(R169, R171), its memory accesses (R176, with spec/20_memory.md R70, R76), and how a running operation ends (R172). -/

namespace Sys2Proof.Machine

open Sys2Proof

/-! ## One event -/

theorem step_of_script_nil {s : State} (h : s.script = []) : step s = .next (engineTurn s) := by
  rw [step, h]

theorem step_of_script_cons {s : State} {e : Event} {rest : List Event} (h : s.script = e :: rest) :
    step s = runEvent e { s with script := rest } := by
  rw [step, h]

/-! ## Register accesses -/

theorem legalAccess_iff {off : BitVec 6} {size : AccessSize} :
    legalAccess off size = true ↔ size = .word ∧ off.toNat % 4 = 0 := by
  simp [legalAccess]

theorem legalAccess_eq_false {off : BitVec 6} {size : AccessSize} (h : size ≠ .word ∨ off.toNat % 4 ≠ 0) :
    legalAccess off size = false := by
  rw [← Bool.not_eq_true, legalAccess_iff]
  tauto

theorem hostRegWrite_of_rst {s : State} (h : s.rst = true) (off : BitVec 6) (size : AccessSize) (v : Word) :
    hostRegWrite off size v s = .next s := by
  rw [hostRegWrite, if_pos h]

theorem hostRegWrite_of_illegal {off : BitVec 6} {size : AccessSize} (h : legalAccess off size = false) (v : Word)
    (s : State) : hostRegWrite off size v s = .next s := by
  simp [hostRegWrite, h]

theorem hostRegWrite_of_aligned {s : State} {off : BitVec 6} (hrst : s.rst = false) (hoff : off.toNat % 4 = 0)
    (v : Word) : hostRegWrite off .word v s = regWrite off v s := by
  have hlegal : legalAccess off .word = true := legalAccess_iff.2 ⟨rfl, hoff⟩
  simp [hostRegWrite, hrst, hlegal]

theorem hostRegRead_of_illegal {off : BitVec 6} {size : AccessSize} (h : legalAccess off size = false) (s : State) :
    hostRegRead off size s = { s with lastRead := some 0#32 } := by
  simp [hostRegRead, h]

/-- A register read gives the register's value; of the rest only the host's older memories can change (42_host_access
R165, log entry 7). -/
theorem hostRegRead_of_aligned {off : BitVec 6} (hoff : off.toNat % 4 = 0) (s : State) :
    hostRegRead off .word s =
      { s with lastRead := some (regRead s off), views := (hostRegRead off .word s).views } := by
  have hlegal : legalAccess off .word = true := legalAccess_iff.2 ⟨rfl, hoff⟩
  rw [hostRegRead, if_pos hlegal]
  dsimp only
  split <;> rfl

/-- Settles O12: such an access is not legal, and neither transaction then reaches a register. -/
theorem illegalRegisterAccessDoesNothing : Obligations.IllegalRegisterAccessDoesNothing := by
  unfold Obligations.IllegalRegisterAccessDoesNothing
  intro s off size v h
  have hillegal := legalAccess_eq_false h
  exact ⟨hostRegWrite_of_illegal hillegal v s, congrArg _ (hostRegRead_of_illegal hillegal s)⟩

/-- Settles O13: the step is the read transaction, and the value read does not depend on the script. -/
theorem registerReadChangesNothing : Obligations.RegisterReadChangesNothing := by
  unfold Obligations.RegisterReadChangesNothing
  intro s rest off hscript hoff
  rw [step_of_script_cons hscript]
  exact ⟨_, congrArg _ (hostRegRead_of_aligned hoff { s with script := rest })⟩

/-- Settles O10: each register reads its fields, and a field narrower than the register has zeros above it. -/
theorem registerReadValues : Obligations.RegisterReadValues := by
  unfold Obligations.RegisterReadValues
  intro s
  have hdecodedLen : regRead s 0x24#6 = (0#16 ++ s.decodedLen : BitVec 32) :=
    BitVec.setWidth_eq_append (by decide)
  have hmagic : regRead s 0x2C#6 = (0#8 ++ s.platform.magic : BitVec 32) :=
    BitVec.setWidth_eq_append (by decide)
  exact ⟨rfl, rfl, rfl, rfl, rfl, rfl, rfl, rfl, rfl, hdecodedLen, rfl, hmagic, rfl, rfl, rfl, rfl, rfl, rfl, rfl, rfl,
    rfl, rfl, rfl, rfl, rfl, rfl, rfl⟩

/-- A write-1-to-clear bit (10_state R22). -/
theorem writeOneToClear (old clear : Bool) : (old && !clear) = if clear = true then false else old := by
  cases clear <;> simp

theorem TruncMode.ofBit_eq (b : Bool) : TruncMode.ofBit b = if b = true then .zeroFill else .error := by
  cases b <;> rfl

theorem TextMode.ofBit_eq (b : Bool) : TextMode.ofBit b = if b = true then .ascii else .utf8 := by
  cases b <;> rfl

theorem clearStatus_eq (v : Word) (s : State) :
    clearStatus v s =
      { s with
        done := if v.getLsbD 1 = true then false else s.done
        cmdIgnored := if v.getLsbD 2 = true then false else s.cmdIgnored } := by
  rw [clearStatus, writeOneToClear, writeOneToClear]

theorem writeConfig_eq (v : Word) (s : State) :
    writeConfig v s =
      { s with
        truncMode := if v.getLsbD 0 = true then .zeroFill else .error
        textMode := if v.getLsbD 1 = true then .ascii else .utf8
        irqEn := v.getLsbD 2
        views := (writeConfig v s).views } := by
  rw [← TruncMode.ofBit_eq, ← TextMode.ofBit_eq]
  rfl

/-- Settles O11: outside reset an aligned register write reaches its register, and each register takes the write as its
row says. -/
theorem registerWriteEffects : Obligations.RegisterWriteEffects := by
  unfold Obligations.RegisterWriteEffects
  refine ⟨fun s rest off v hscript hoff hrst => ?_, fun s v => ?_⟩
  · rw [step_of_script_cons hscript]
    exact hostRegWrite_of_aligned (s := { s with script := rest }) hrst hoff v
  · exact ⟨rfl, congrArg _ (clearStatus_eq v s), rfl, ⟨_, congrArg _ (writeConfig_eq v s)⟩, rfl, rfl, rfl, rfl, rfl,
      rfl, rfl, rfl, rfl, rfl, rfl, rfl⟩

/-! ## The command decoder -/

/-- Settles O2: the word 0 decodes to NOP, whose meaning is the same state. -/
theorem nopChangesNoState : Obligations.NopChangesNoState := by
  unfold Obligations.NopChangesNoState
  exact fun s => ⟨rfl, rfl⟩

theorem command_of_decode {w : Word} {i : Instr} (h : decode w = .ok i) (s : State) : command w s = exec i s := by
  rw [command, h]

theorem command_of_decode_error {w : Word} {e : DecodeError} (h : decode w = .error e) (s : State) :
    command w s = .next (setCmdIgnored s) := by
  rw [command, h]

/-- A command to a busy block is ignored (42_host_access R172). -/
theorem exec_of_busy {i : Instr} {s : State} (hi : i ≠ .nop) (hb : s.busy = true) :
    exec i s = .next (setCmdIgnored s) := by
  cases i with
  | nop => exact absurd rfl hi
  | embed => rw [exec, execEmbed, if_pos hb]
  | extract => rw [exec, execExtract, if_pos hb]

/-- A word that is no legal command is none of the two that start an operation. -/
theorem ne_start_of_not_legal {w : Word} (h : legalCommand w = false) : w ≠ 0x00000001#32 ∧ w ≠ 0x00000002#32 := by
  simp only [legalCommand, Bool.or_eq_false_iff, beq_eq_false_iff_ne] at h
  obtain ⟨⟨-, hembed⟩, hextract⟩ := h
  exact ⟨hembed, hextract⟩

/-- Settles O5: each of the outcomes of a command is that of its row. -/
theorem commandDecoderFollowsItsTable : Obligations.CommandDecoderFollowsItsTable := by
  unfold Obligations.CommandDecoderFollowsItsTable
  refine ⟨fun w s => ?_, fun s i hb hi => exec_of_busy hi hb⟩
  rcases command_cases w s with ⟨rfl, hc⟩ | ⟨hword, hwhy, hc⟩ | ⟨rfl, hidle, hc⟩ | ⟨rfl, hidle, hc⟩ <;> rw [hc]
  · rfl
  · have h0 : w ≠ 0x00000000#32 := hword
    rw [if_neg h0]
    rcases hwhy with hb | hreserved
    · rw [if_pos hb]
      rfl
    · obtain ⟨h1, h2⟩ := ne_start_of_not_legal hreserved
      rw [if_neg h1, if_neg h2, ite_self]
      rfl
  · simp [hidle]
  · simp [hidle]

/-- The step whose next event is the write of a word to CMD, outside reset (42_host_access R165). -/
theorem step_of_cmdWrite {s : State} {rest : List Event} {w : Word} (h : s.script = .regWrite 0x00#6 .word w :: rest)
    (hrst : s.rst = false) : step s = command w { s with script := rest } := by
  rw [step_of_script_cons h]
  exact hostRegWrite_of_aligned (s := { s with script := rest }) hrst rfl w

theorem withFetchWord_script (s : State) (w : Word) :
    (s.withFetchWord 32 w.toNat).script = .regWrite 0x00#6 .word w :: s.script := by
  rw [State.withFetchWord, Nat.mod_eq_of_lt w.isLt, BitVec.ofNat_toNat, BitVec.setWidth_eq]

/-- Settles O6: the write of CMD is the command, and `withFetchWord` puts that write first and `rst` low. -/
theorem stepRunsTheDecodedCommand : Obligations.StepRunsTheDecodedCommand := by
  unfold Obligations.StepRunsTheDecodedCommand
  refine ⟨fun s rest w hscript => ⟨fun hrst => ⟨fun i hi => ?_, fun e he => ?_⟩, fun hrst => ?_⟩, fun s w i hi => ?_,
    fun s => step_of_script_nil⟩
  · rw [step_of_cmdWrite hscript hrst, command_of_decode hi]
  · rw [step_of_cmdWrite hscript hrst, command_of_decode_error he]
    rfl
  · rw [step_of_script_cons hscript]
    exact hostRegWrite_of_rst (s := { s with script := rest }) hrst _ _ _
  · rw [step_of_cmdWrite (withFetchWord_script s w) rfl, command_of_decode hi]
    rfl

/-! ## How a running operation ends -/

/-- The operation goes on, or it has ended with DONE = 1. -/
def State.RunsOrDone (s : State) : Prop := s.phase ≠ .idle ∨ s.done = true

theorem finish_runsOrDone (r : Result) (s : State) : (finish r s).RunsOrDone := .inr rfl

theorem ExtractActed.runsOrDone {u v : State} (h : ExtractActed u v) (hp : u.phase ≠ .idle) : v.RunsOrDone := by
  cases h with
  | badHeader | noPayload | lastByte => exact finish_runsOrDone _ _
  | lengthOk | byte | bit => exact .inl hp

/-- A step of the engine ends the operation by `Finish` alone (60_exceptions R193). -/
theorem engineStep_runsOrDone {s : State} (hidle : s.phase ≠ .idle) : (engineStep s).RunsOrDone := by
  unfold engineStep
  cases hp : s.phase with
  | idle => exact absurd hp hidle
  | eLen =>
    dsimp only [embedLen]
    split
    · exact finish_runsOrDone _ _
    · exact .inl nofun
  | eScan =>
    dsimp only [embedScan]
    split
    · exact .inl nofun
    · split
      · exact finish_runsOrDone _ _
      · exact .inl hidle
  | eCap =>
    dsimp only [embedCap]
    split
    · exact finish_runsOrDone _ _
    · exact .inl nofun
  | eWrite =>
    dsimp only [embedWrite]
    split
    · exact finish_runsOrDone _ _
    · exact .inl (by simpa using hidle)
  | xBits =>
    rcases extractBits_cases s with ⟨-, heq⟩ | ⟨-, b, c, heq⟩ <;> rw [heq]
    · exact finish_runsOrDone _ _
    · exact (extractAct_cases _).runsOrDone (by simpa using hidle)

theorem engineTurn_runsOrDone {s : State} (hidle : s.phase ≠ .idle) : (engineTurn s).RunsOrDone := by
  rcases engineTurn_cases s with heq | ⟨-, -, -, heq⟩ <;> rw [heq]
  · exact .inl hidle
  · exact engineStep_runsOrDone hidle

/-- Settles O46: but for reset, only a turn of the engine takes a running operation further. -/
theorem operationEndsOnlyByFinishOrReset : Obligations.OperationEndsOnlyByFinishOrReset := by
  unfold Obligations.OperationEndsOnlyByFinishOrReset
  intro s t h hbusy hidle
  by_cases hrst : s.script.head? = some .rstAssert
  · exact .inr hrst
  · obtain ⟨u, hop, ht⟩ := step_of_busy h hbusy hrst
    have huphase : u.phase = s.phase := (congrArg State.phase hop :)
    have hubusy : u.phase ≠ .idle := huphase ▸ s.busy_eq_true.1 hbusy
    have hended : t.RunsOrDone := by
      rcases ht with rfl | rfl
      · exact .inl hubusy
      · exact engineTurn_runsOrDone hubusy
    exact .inl (hended.resolve_left (not_not.2 (t.busy_eq_false.1 hidle)))

/-! ## Memory accesses of the host -/

/-- Memory after host writes complete, oldest first. -/
def Memory.writeAll (m : Memory) (l : List (Addr × Byte)) : Memory :=
  l.foldl (fun m c => m.write c.1.toNat c.2) m

theorem Memory.writeAll_concat (m : Memory) (l : List (Addr × Byte)) (c : Addr × Byte) :
    Memory.writeAll m (l ++ [c]) = (Memory.writeAll m l).write c.1.toNat c.2 :=
  List.foldl_concat ..

theorem drainAll_mem (s : State) : (drainAll s).mem = Memory.writeAll s.mem s.posted :=
  (List.foldl_hom State.mem fun _ _ => rfl).symm

theorem Memory.wf_writeAll {m : Memory} (hm : m.wf = true) (l : List (Addr × Byte)) :
    (Memory.writeAll m l).wf = true := by
  induction l using List.reverseRecOn with
  | nil => exact hm
  | append_singleton l c ih =>
    rw [Memory.writeAll_concat]
    exact Memory.wf_write c.1 c.2 ih

/-- The last of the writes to a byte gives its value. -/
theorem Memory.read_writeAll_of_last {m : Memory} (hm : m.wf = true) {a : Addr} {v : Byte} (l : List (Addr × Byte))
    (h : ((l.filter (·.1 == a)).map (·.2)).getLast? = some v) : (Memory.writeAll m l).read a.toNat = v := by
  induction l using List.reverseRecOn with
  | nil => simp at h
  | append_singleton l c ih =>
    rw [Memory.writeAll_concat]
    by_cases ha : c.1 = a
    · obtain rfl : c.2 = v := by simpa [ha] using h
      rw [← ha, Memory.read_write_same _ _ (Memory.wf_writeAll hm l)]
    · rw [Memory.read_write_ne _ _ fun heq => ha (BitVec.eq_of_toNat_eq heq.symm)]
      exact ih (by simpa [ha] using h)

/-- The fence leaves the last value issued at each byte (70_reset_and_hazards R223; log entry 8). -/
theorem drainAll_read_of_posted {s : State} (hm : s.mem.wf = true) {a : Addr} {v : Byte}
    (h : (postedVals s a).getLast? = some v) : (drainAll s).mem.read a.toNat = v := by
  rw [drainAll_mem]
  exact Memory.read_writeAll_of_last hm s.posted h

/-- A host write leaves every other byte (20_memory R70). -/
theorem hostStore_read_of_ne (s : State) {a b : Addr} (v : Byte) (h : b ≠ a) :
    (hostStore s a v).mem.read b.toNat = s.mem.read b.toNat :=
  Memory.read_write_ne _ _ (mt BitVec.eq_of_toNat_eq h)

theorem hostStore_read_same {s : State} (hm : s.mem.wf = true) (a : Addr) (v : Byte) :
    (hostStore s a v).mem.read a.toNat = v :=
  Memory.read_write_same _ _ hm

theorem runEvent_memWrite_of_backed {s : State} {a : Addr} (h : backed s a = true) (v : Byte) :
    runEvent (.memWrite a v) s = .next (hostMemWrite a v s) :=
  congrArg _ (ifBacked_of_backed h _)

theorem drainOne_of_posted {s : State} {a : Addr} {v : Byte} {rest : List (Addr × Byte)}
    (h : s.posted = (a, v) :: rest) : drainOne s = hostStore { s with posted := rest } a v := by
  rw [drainOne, h]

/-- From `s` to `t` only what a memory access of the host can change is changed (42_host_access R176). -/
def OnlyHostMemoryAccess (s t : State) : Prop :=
  t = { s with
        mem := t.mem, posted := t.posted, races := t.races, views := t.views
        lastRead := t.lastRead, choices := t.choices }

theorem OnlyWritesCompleted.onlyHostMemoryAccess {s t : State} (h : OnlyWritesCompleted s t) :
    OnlyHostMemoryAccess s t := by
  unfold OnlyHostMemoryAccess
  exact congrArg (fun u : State => { u with lastRead := t.lastRead, choices := t.choices }) h

theorem hostMemRead_onlyHostMemoryAccess (a : Addr) (s : State) : OnlyHostMemoryAccess s (hostMemRead a s) := by
  rw [hostMemRead_frame]
  rfl

theorem drainOne_onlyWritesCompleted (s : State) : OnlyWritesCompleted s (drainOne s) := by
  unfold drainOne
  split <;> rfl

theorem ifBacked_onlyWritesCompleted {write : State → State} {s : State} (h : OnlyWritesCompleted s (write s))
    (a : Addr) : OnlyWritesCompleted s (ifBacked a write s) := by
  unfold ifBacked
  split
  · exact h
  · rfl

/-- Settles O41: each access is a store, a wait in the list of issued writes, or their completion in order; the memory
laws say what that leaves, and no access touches the block. -/
theorem hostMemoryAccessLeavesTheBlock : Obligations.HostMemoryAccessLeavesTheBlock := by
  unfold Obligations.HostMemoryAccessLeavesTheBlock
  refine ⟨?read, ?write, ?post, ?unbacked, ?drain, ?fence, ?frame⟩
  case read =>
    intro s t a h
    cases h
    rw [hostMemRead_frame]
    exact ⟨rfl, rfl, rfl, rfl⟩
  case write =>
    intro s t a v hm hbacked h
    rw [runEvent_memWrite_of_backed hbacked] at h
    cases h
    exact ⟨rfl, hostStore_read_same (drainAll_mem_wf hm) a v, fun b hb hother =>
      (hostStore_read_of_ne _ v hb).trans (drainAll_read_of_not_posted hother)⟩
  case post => exact fun s a v hbacked => congrArg _ (ifBacked_of_backed hbacked (hostMemPost a v))
  case unbacked =>
    exact fun s a v hbacked => ⟨congrArg _ (ifBacked_of_not_backed hbacked _),
      congrArg _ (ifBacked_of_not_backed hbacked _)⟩
  case drain =>
    intro s t rest a v hm hposted h
    cases h
    rw [drainOne_of_posted hposted]
    exact ⟨rfl, hostStore_read_same (s := { s with posted := rest }) hm a v, fun b hb => hostStore_read_of_ne _ v hb⟩
  case fence =>
    intro s t hm h
    cases h
    exact ⟨rfl, fun a v hlast => drainAll_read_of_posted hm hlast, fun b hother => drainAll_read_of_not_posted hother⟩
  case frame =>
    rintro s t e (⟨a, v, rfl⟩ | ⟨a, v, rfl⟩ | ⟨a, rfl⟩ | rfl | rfl) h <;> cases h
    · exact (ifBacked_onlyWritesCompleted (write := hostMemWrite a v) rfl a).onlyHostMemoryAccess
    · exact (ifBacked_onlyWritesCompleted (write := hostMemPost a v) rfl a).onlyHostMemoryAccess
    · exact hostMemRead_onlyHostMemoryAccess a s
    · exact (drainOne_onlyWritesCompleted s).onlyHostMemoryAccess
    · rfl

end Sys2Proof.Machine

/-! PROOFS. The end of an operation and its interrupt (spec/60_exceptions.md): when `irq` rises and falls (R196), and what
`Finish` changes (R193). -/

namespace Sys2Proof.Machine

/-! ## The interrupt -/

/-- DONE is the pending state: where it is clear, `irq` is low whatever IRQ_EN is (60_exceptions R196). -/
theorem State.irq_of_done_clear {s : State} (h : s.done = false) : s.irq = false := by
  rw [State.irq, h, Bool.false_and]

theorem clearStatus_done_of_bit {v : Word} (h : v.getLsbD 1 = true) (s : State) : (clearStatus v s).done = false := by
  simp [h]

@[simp] theorem resetBlock_done (s : State) : (resetBlock s).done = false := rfl

@[simp] theorem writeConfig_done (v : Word) (s : State) : (writeConfig v s).done = s.done := rfl

@[simp] theorem writeConfig_irqEn (v : Word) (s : State) : (writeConfig v s).irqEn = v.getLsbD 2 := rfl

/-- A CONFIG write that sets IRQ_EN while DONE = 1 raises `irq`, and one that clears IRQ_EN lowers it (60_exceptions
R196). -/
theorem writeConfig_irq (v : Word) (s : State) : (writeConfig v s).irq = (s.done && v.getLsbD 2) := by
  rw [State.irq, writeConfig_done, writeConfig_irqEn]

/-- Settles O16: `Finish` sets DONE, a start, an acknowledging STATUS write and reset clear it, and a CONFIG write gives
IRQ_EN its bit 2 and leaves DONE. -/
theorem irqFollowsDoneAndEnable : Obligations.IrqFollowsDoneAndEnable := by
  unfold Obligations.IrqFollowsDoneAndEnable
  intro s r v
  refine ⟨?level, ?finish, ?embed, ?extract, ?status, ?config, ?reset⟩
  case level => rfl
  case finish => exact finish_irq r s
  case embed => exact State.irq_of_done_clear (startEmbed_done s)
  case extract => exact State.irq_of_done_clear (startExtract_done s)
  case status => exact fun hbit => State.irq_of_done_clear (clearStatus_done_of_bit hbit s)
  case config => exact writeConfig_irq v s
  case reset => exact State.irq_of_done_clear (resetBlock_done s)

/-! ## Finish -/

/-- `Finish` changes RESULT, DONE and the phase; of the rest, only memory and the model's own fields can change, where
races settle and the host sees the completion (60_exceptions R193). -/
theorem finish_frame (r : Result) (s : State) :
    finish r s =
      { s with
        result := r
        done := true
        phase := .idle
        mem := (finish r s).mem
        races := (finish r s).races
        views := (finish r s).views
        choices := (finish r s).choices } := rfl

/-- `Finish` itself accesses no memory: without races to settle it leaves memory as it is (60_exceptions R193). -/
theorem finish_mem_of_no_races {s : State} (h : s.races = []) (r : Result) : (finish r s).mem = s.mem := by
  rw [finish_mem, settle_of_no_races h]

/-- Settles O17: the fields `Finish` sets, its frame, and memory where there is no race to settle. -/
theorem finishDoesExactly : Obligations.FinishDoesExactly := by
  unfold Obligations.FinishDoesExactly
  intro r s
  exact ⟨finish_result r s, finish_busy r s, finish_done r s, finish_phase r s, finish_frame r s,
    fun hraces => finish_mem_of_no_races hraces r⟩

end Sys2Proof.Machine

/-! PROOFS. Reset and hazards (spec/70_reset_and_hazards.md): what `rst` does (R210, R211), a register read after a
write (R216), races on the footprint and early reads (R217 to R219), a command at about the time of `Finish` (R220), and
when the engine waits (R227, R228). -/

namespace Sys2Proof.Machine

open Sys2Proof

/-! ## Reset -/

theorem resetBlock_blockAtReset (s : State) : (resetBlock s).BlockAtReset := by
  simp [State.BlockAtReset, resetBlock]

/-- A block at its reset values reads 0 at every offset but that of MAGIC (10_state R50). -/
theorem State.BlockAtReset.regRead {s : State} (h : s.BlockAtReset) (off : BitVec 6) :
    regRead s off = if off = 0x2C#6 then s.platform.magic.setWidth 32 else 0#32 := by
  obtain ⟨hdone, hignored, hresult, htrunc, htext, hirqEn, hwidth, hheight, hgrid, hpayload, hlen, hdecoded, hphase,
    -, -, -, -, -, -, hk, -⟩ := h
  have hstatus : statusWord s = 0#32 := by simp [statusWord, State.busy, hignored, hdone, hphase]
  have hcode : resultWord s = 0#32 := by simp [resultWord, State.busy, hphase, hresult, Result.code]
  have hconfig : configWord s = 0#32 := by simp [configWord, hirqEn, htext, htrunc, TextMode.bit, TruncMode.bit]
  by_cases hoff : off = 0x2C#6
  · rw [if_pos hoff, hoff]
    exact regRead_magic s
  · rw [if_neg hoff]
    unfold Machine.regRead
    split
    case h_11 hmagic => exact absurd (BitVec.eq_of_toNat_eq hmagic) hoff
    all_goals simp only [hstatus, hcode, hconfig, hwidth, hheight, hgrid, hpayload, hlen, hdecoded, hk]
    all_goals rfl

/-- Settles O8: the step is `resetBlock` with `rst` set, which settles the races and so writes raced bytes only. -/
theorem assertedResetRestoresTheBlock : Obligations.AssertedResetRestoresTheBlock := by
  unfold Obligations.AssertedResetRestoresTheBlock
  intro s rest hscript
  have hreset := resetBlock_blockAtReset { s with script := rest }
  refine ⟨{ resetBlock { s with script := rest } with rst := true }, step_of_script_cons hscript, rfl, hreset, rfl,
    rfl, rfl, rfl, rfl, fun off => hreset.regRead off, fun a hno => ?_⟩
  exact (settle_spec { s with script := rest }).1 a.toNat fun r hr haddr => hno r hr (BitVec.eq_of_toNat_eq haddr)

theorem State.BlockAtReset.of_block_eq {s t : State} (h : s.BlockAtReset) (hblock : t.block = s.block) :
    t.BlockAtReset :=
  (congrArg State.BlockAtReset hblock).mpr h

/-- Settles O9: the engine is idle, a register write is held off, and no other event but a further assertion of `rst`
reaches the block. -/
theorem blockIsHeldWhileResetIsAsserted : Obligations.BlockIsHeldWhileResetIsAsserted := by
  unfold Obligations.BlockIsHeldWhileResetIsAsserted
  intro s t hrst hreset h
  rcases step_cases h with hblock | ⟨u, hu, rfl⟩ | ⟨-, hagain⟩ | ⟨off, size, v, rest, -, hw⟩
  · exact hreset.of_block_eq hblock
  · have hureset := hreset.of_block_eq hu
    rwa [engineTurn_of_idle hureset.idle]
  · exact hagain
  · rw [hostRegWrite_of_rst (s := { s with script := rest }) hrst] at hw
    cases hw
    exact hreset

/-! ## A register read after a write -/

@[simp] theorem TruncMode.bit_ofBit (b : Bool) : (TruncMode.ofBit b).bit = b := by cases b <;> rfl

@[simp] theorem TextMode.bit_ofBit (b : Bool) : (TextMode.ofBit b).bit = b := by cases b <;> rfl

/-- The mask of the three defined bits of CONFIG. -/
theorem getLsbD_seven (i : Nat) : (7#32).getLsbD i = decide (i < 3) := by
  have hseven : Nat.testBit 7 i = decide (i < 3) := Nat.testBit_two_pow_sub_one 3 i
  rw [BitVec.getLsbD_ofNat, hseven, ← Bool.decide_and, decide_eq_decide]
  omega

/-- Three bits of a word, in their places, are the word with the others cleared. -/
theorem lowThreeBits_eq (v : Word) :
    (0#29 ++ BitVec.ofBool (v.getLsbD 2) ++ BitVec.ofBool (v.getLsbD 1) ++ BitVec.ofBool (v.getLsbD 0) : BitVec 32) =
      v &&& 7#32 := by
  refine BitVec.eq_of_getLsbD_eq fun i _ => ?_
  rw [BitVec.getLsbD_and, getLsbD_seven]
  simp only [BitVec.getLsbD_append, BitVec.getLsbD_ofBool]
  rcases i with _ | _ | _ | i <;> simp

/-- CONFIG reads back its three defined bits (10_state R28). -/
theorem configWord_writeConfig (v : Word) (s : State) : configWord (writeConfig v s) = v &&& 7#32 := by
  rw [← lowThreeBits_eq, configWord, writeConfig_eq, ← TruncMode.ofBit_eq, ← TextMode.ofBit_eq, TruncMode.bit_ofBit,
    TextMode.bit_ofBit]

/-- Settles O14: each of the six registers is written to the field it is read from. -/
theorem readAfterRegisterWrite : Obligations.ReadAfterRegisterWrite := by
  unfold Obligations.ReadAfterRegisterWrite
  refine fun s v => ⟨fun off hoff => ?_, writeConfig v s, regWrite_config v s, configWord_writeConfig v s⟩
  simp only [List.mem_cons, List.not_mem_nil, or_false] at hoff
  rcases hoff with rfl | rfl | rfl | rfl | rfl <;> exact ⟨_, rfl, rfl⟩

/-! ## The footprint -/

/-- Below a bound that keeps the grid from wrapping onto itself, the distance from the base tells the red bytes. -/
theorem isRedBelow_iff (s : State) {n : Nat} (hn : 3 * n ≤ 2 ^ 32) (a : Addr) :
    isRedBelow s n a = true ↔ ∃ p < n, a = redAddr s p := by
  refine ⟨fun h => ?_, fun ⟨p, hp, ha⟩ => ha ▸ isRedBelow_redAddr s hp (by omega)⟩
  simp only [isRedBelow, Config.pixelStride, Bool.and_eq_true, beq_iff_eq] at h
  obtain ⟨hmod, hlt⟩ := h
  refine ⟨_, of_decide_eq_true hlt, ?_⟩
  rw [redAddr, redAddrAt, Config.pixelStride, Nat.mul_div_cancel' (Nat.dvd_of_mod_eq_zero hmod), BitVec.ofNat_toNat,
    BitVec.setWidth_eq, add_sub_cancel]

/-- Below the size of memory, the distance from the base tells the payload bytes. -/
theorem isPayBelow_iff (s : State) {n : Nat} (hn : n ≤ 2 ^ 32) (a : Addr) :
    isPayBelow s n a = true ↔ ∃ i < n, a = payAddr s i := by
  refine ⟨fun h => ?_, fun ⟨i, hi, ha⟩ => ha ▸ isPayBelow_payAddr s hi (by omega)⟩
  refine ⟨_, of_decide_eq_true h, ?_⟩
  rw [payAddr, payAddrAt, BitVec.ofNat_toNat, BitVec.setWidth_eq, add_sub_cancel]

theorem inFootprint_iff_of_embed {s : State} (hidle : s.phase ≠ .idle) (hx : s.phase ≠ .xBits) (a : Addr) :
    inFootprint s a = true ↔
      s.sL.toNat ≤ 65535 ∧
        ((∃ i < s.sL.toNat, a = payAddr s i) ∨ ∃ p < 40 + 8 * s.sL.toNat, a = redAddr s p) := by
  rw [inFootprint_of_embed hidle hx, Bool.and_eq_true, Bool.or_eq_true, decide_eq_true_eq]
  refine and_congr_right fun (hL : s.sL.toNat ≤ 65535) => or_congr (isPayBelow_iff s (by omega) a) ?_
  exact isRedBelow_iff s (n := 40 + 8 * s.sL.toNat) (by omega) a

theorem inFootprint_iff_of_extract {s : State} (hx : s.phase = .xBits) (a : Addr) :
    inFootprint s a = true ↔ (∃ p < min s.sN 524320, a = redAddr s p) ∨ ∃ i < 65535, a = payAddr s i := by
  have hfoot : inFootprint s a = (isRedBelow s (min s.sN 524320) a || isPayBelow s 65535 a) := by
    rw [inFootprint, hx]
    rfl
  rw [hfoot, Bool.or_eq_true, isRedBelow_iff s (by omega), isPayBelow_iff s (by omega)]

/-- Settles O33: the phases of EMBED share one footprint, EXTRACT has its own, and no index is so large that the
addresses wrap. -/
theorem footprintIsTheRedAndPayloadBytes : Obligations.FootprintIsTheRedAndPayloadBytes := by
  unfold Obligations.FootprintIsTheRedAndPayloadBytes
  refine fun s a => ⟨fun hp => by rw [inFootprint, hp], fun hp => ?_, fun hp => inFootprint_iff_of_extract hp a⟩
  exact inFootprint_iff_of_embed (fun h => by simp [h] at hp) (fun h => by simp [h] at hp) a

/-! ## Races on the footprint -/

theorem mem_racedVals_iff {s : State} {a : Addr} {u : Byte} :
    u ∈ racedVals s a ↔ ∃ r ∈ s.races, r.addr = a ∧ u ∈ r.seen := by
  simp [racedVals, and_assoc]

theorem noteHostWrite_seen {a : Addr} {r : Race} (h : r.addr = a) (v : Byte) :
    (noteHostWrite a v r).seen = r.seen ++ [v] := by
  rw [noteHostWrite, if_pos h]

theorem hostStore_races_of_race {s : State} {a : Addr} (hfoot : inFootprint s a = true)
    (hrace : ∃ r ∈ s.races, r.addr = a) (v : Byte) : (hostStore s a v).races = s.races.map (noteHostWrite a v) := by
  have hany : s.races.any (·.addr == a) = true := by simpa using hrace
  rw [hostStore, if_pos hfoot, racesAfterHostWrite, if_pos hany]

theorem hostStore_races_of_no_race {s : State} {a : Addr} (hfoot : inFootprint s a = true)
    (hno : ∀ r ∈ s.races, r.addr ≠ a) (v : Byte) : (hostStore s a v).races = s.races ++ [s.newRace a v] := by
  have hany : ¬s.races.any (·.addr == a) = true := by simpa using hno
  rw [hostStore, if_pos hfoot, racesAfterHostWrite, if_neg hany]
  rfl

/-- A host write to a byte already raced for adds its value to those the byte has had. -/
theorem mem_racedVals_hostStore_of_race {s : State} {a : Addr} {r : Race} (hfoot : inFootprint s a = true)
    (hr : r ∈ s.races) (ha : r.addr = a) {u v : Byte} (hu : u ∈ r.seen ∨ u = v) :
    u ∈ racedVals (hostStore s a v) a := by
  rw [mem_racedVals_iff, hostStore_races_of_race hfoot ⟨r, hr, ha⟩]
  refine ⟨_, List.mem_map_of_mem hr, (noteHostWrite_addr a v r).trans ha, ?_⟩
  rw [noteHostWrite_seen ha, List.mem_append, List.mem_singleton]
  exact hu

/-- The first host write to a byte leaves the byte's old and new value open (70_reset_and_hazards R217). -/
theorem mem_racedVals_hostStore_of_no_race {s : State} {a : Addr} (hfoot : inFootprint s a = true)
    (hno : ∀ r ∈ s.races, r.addr ≠ a) {u v : Byte} (hu : u = s.mem.read a.toNat ∨ u = v) :
    u ∈ racedVals (hostStore s a v) a := by
  rw [mem_racedVals_iff, hostStore_races_of_no_race hfoot hno]
  exact ⟨s.newRace a v, by simp, rfl, by simpa [State.newRace] using hu⟩

/-- Settles O36: the race of the byte has memory's value among those it has seen, and where there is none the write
makes one. -/
theorem footprintWriteMakesARace : Obligations.FootprintWriteMakesARace := by
  unfold Obligations.FootprintWriteMakesARace
  intro s a v hinv hfoot
  have hparts := State.inv_iff_parts.1 hinv
  refine ⟨hostStore_read_same hparts.mem_wf a v, ?_⟩
  by_cases hrace : ∃ r ∈ s.races, r.addr = a
  · obtain ⟨r, hr, rfl⟩ := hrace
    obtain ⟨-, hseen, -⟩ := hparts.raceInv.2 r hr
    refine ⟨mem_racedVals_hostStore_of_race hfoot hr rfl (.inr rfl),
      mem_racedVals_hostStore_of_race hfoot hr rfl (.inl hseen), fun u hu => ?_⟩
    obtain ⟨q, hq, hqr, huq⟩ := mem_racedVals_iff.1 hu
    exact mem_racedVals_hostStore_of_race hfoot hq hqr (.inl huq)
  · have hno : ∀ r ∈ s.races, r.addr ≠ a := by simpa using hrace
    refine ⟨mem_racedVals_hostStore_of_no_race hfoot hno (.inr rfl),
      mem_racedVals_hostStore_of_no_race hfoot hno (.inl rfl), fun u hu => ?_⟩
    rw [racedVals_of_no_race_at hno] at hu
    cases hu

/-! ## The end of a race -/

/-- The byte of the race `r` holds the other agent's value or, if the engine wrote the byte, the engine's. -/
def Race.EndsIn (r : Race) (m : Memory) : Prop :=
  m.read r.addr.toNat = r.hostVal ∨ ∃ w, r.engineVal = some w ∧ m.read r.addr.toNat = w

/-- Settling a race chooses between the values of the two agents; a byte the engine has not written holds the other
agent's already. -/
theorem settleRace_endsIn {s : State} {r : Race} (hwf : s.mem.wf = true)
    (hval : r.engineVal = none → s.mem.read r.addr.toNat = r.hostVal) : r.EndsIn (settleRace s r).mem := by
  unfold settleRace
  cases hengine : r.engineVal with
  | none => exact .inl (hval hengine)
  | some w =>
    have hread : (s.mem.write r.addr.toNat (chosen s r.hostVal [w])).read r.addr.toNat = chosen s r.hostVal [w] :=
      Memory.read_write_same _ _ hwf
    have hchosen : chosen s r.hostVal [w] = r.hostVal ∨ chosen s r.hostVal [w] = w := by
      simpa using chosen_mem s r.hostVal [w]
    exact hchosen.imp hread.trans fun h => ⟨w, hengine, hread.trans h⟩

theorem Race.EndsIn.congr {r : Race} {m m' : Memory} (h : r.EndsIn m)
    (hread : m'.read r.addr.toNat = m.read r.addr.toNat) : r.EndsIn m' := by
  rwa [Race.EndsIn, hread]

/-- Settling races leaves a byte that none of them is for. -/
theorem foldl_settleRace_read {l : List Race} {a : Addr} (hno : ∀ q ∈ l, q.addr ≠ a) (t : State) :
    (l.foldl settleRace t).mem.read a.toNat = t.mem.read a.toNat := by
  induction l generalizing t with
  | nil => rfl
  | cons q l ih =>
    obtain ⟨hq, hl⟩ := List.forall_mem_cons.1 hno
    rw [List.foldl_cons, ih hl]
    exact (settleRace_spec t q).1 a.toNat (mt BitVec.eq_of_toNat_eq hq.symm)

/-- Settling races one after another: each byte has one race, and the other races leave it. -/
theorem foldl_settleRace_endsIn {l : List Race} (hdistinct : l.Pairwise (fun r q => r.addr ≠ q.addr)) {r : Race}
    (hr : r ∈ l) {t : State} (hwf : t.mem.wf = true)
    (hval : r.engineVal = none → t.mem.read r.addr.toNat = r.hostVal) : r.EndsIn (l.foldl settleRace t).mem := by
  induction l generalizing t with
  | nil => cases hr
  | cons q l ih =>
    obtain ⟨hq, hl⟩ := List.pairwise_cons.1 hdistinct
    obtain ⟨hkeep, hkeepwf⟩ := settleRace_spec t q
    rw [List.foldl_cons]
    rcases List.mem_cons.1 hr with rfl | hr
    · exact (settleRace_endsIn hwf hval).congr (foldl_settleRace_read (fun q hmem => (hq q hmem).symm) _)
    · have hread := hkeep r.addr.toNat (mt BitVec.eq_of_toNat_eq (hq r hr).symm)
      exact ih hl hr (hkeepwf hwf) fun hnone => hread.trans (hval hnone)

/-- Settles O37: the invariant gives each byte one race, and memory the other agent's value where the engine has not
written. -/
theorem racedByteEndsWithEitherValue : Obligations.RacedByteEndsWithEitherValue := by
  unfold Obligations.RacedByteEndsWithEitherValue
  intro s res r hinv hr
  have hparts := State.inv_iff_parts.1 hinv
  obtain ⟨hdistinct, hfacts⟩ := hparts.raceInv
  obtain ⟨-, -, hval⟩ := hfacts r hr
  exact ⟨finish_races res s, foldl_settleRace_endsIn hdistinct hr hparts.mem_wf hval⟩

/-! ## Early reads of the host -/

theorem hostLoad_of_none_posted {s : State} {a : Addr} (h : postedVals s a = []) :
    hostLoad s a =
      choose s (s.mem.read a.toNat)
        ((if engineWrote s a then racedVals s a else []) ++ s.views.map (fun m => m.read a.toNat)) := by
  rw [hostLoad, h]
  rfl

/-- Settles O39: with nothing outstanding the read is a choice, which gives one of the values and moves the free value's
counter only. -/
theorem earlyHostReadGivesOldOrNew : Obligations.EarlyHostReadGivesOldOrNew := by
  unfold Obligations.EarlyHostReadGivesOldOrNew
  intro s a hposted
  rw [hostLoad_of_none_posted hposted]
  refine ⟨?_, rfl⟩
  rcases List.mem_cons.1 (chosen_mem s _ _) with hmem | hother
  · exact .inl hmem
  · rcases List.mem_append.1 hother with hraced | hview
    · exact .inr (.inr (List.mem_ite_nil_right.1 hraced))
    · obtain ⟨m, hm, heq⟩ := List.mem_map.1 hview
      exact .inr (.inl ⟨m, hm, heq.symm⟩)

/-! ## A command at about the time of `Finish` -/

theorem command_of_busy {s : State} (hb : s.busy = true) {w : Word} (hw : w ≠ 0) :
    command w s = .next (setCmdIgnored s) := by
  rcases command_cases w s with ⟨h0, -⟩ | ⟨-, -, hc⟩ | ⟨-, hidle, -⟩ | ⟨-, hidle, -⟩
  · exact absurd h0 hw
  · exact hc
  all_goals simp [hb] at hidle

theorem command_of_reserved {w : Word} (hw : legalCommand w = false) (s : State) :
    command w s = .next (setCmdIgnored s) := by
  have h0 : w ≠ 0 := by
    rintro rfl
    cases hw
  obtain ⟨h1, h2⟩ := ne_start_of_not_legal hw
  exact command_of_decode_error (decode_reserved h0 h1 h2) s

theorem command_embed_of_idle {s : State} (h : s.busy = false) : command 0x00000001#32 s = .next (startEmbed s) := by
  have hexec : command 0x00000001#32 s = exec .embed s := command_of_decode (decode_encode .embed) s
  rw [hexec, exec, execEmbed, h, if_neg Bool.false_ne_true]

theorem command_extract_of_idle {s : State} (h : s.busy = false) :
    command 0x00000002#32 s = .next (startExtract s) := by
  have hexec : command 0x00000002#32 s = exec .extract s := command_of_decode (decode_encode .extract) s
  rw [hexec, exec, execExtract, h, if_neg Bool.false_ne_true]

/-! ### The engine does not look at CMD_IGNORED -/

theorem settleRace_setCmdIgnored (s : State) (r : Race) :
    settleRace (setCmdIgnored s) r = setCmdIgnored (settleRace s r) := by
  unfold settleRace
  split <;> rfl

theorem settle_setCmdIgnored (s : State) : settle (setCmdIgnored s) = setCmdIgnored (settle s) := by
  have hfold : s.races.foldl settleRace (setCmdIgnored s) = setCmdIgnored (s.races.foldl settleRace s) :=
    List.foldl_hom setCmdIgnored fun t r => settleRace_setCmdIgnored t r
  exact congrArg (fun t : State => { setCmdIgnored s with mem := t.mem, choices := t.choices, races := [] }) hfold

theorem finish_setCmdIgnored (r : Result) (s : State) : finish r (setCmdIgnored s) = setCmdIgnored (finish r s) :=
  congrArg (fun t : State => hostSeesIrq { t with result := r, done := true, phase := .idle }) (settle_setCmdIgnored s)

theorem embedLen_setCmdIgnored (s : State) : embedLen (setCmdIgnored s) = setCmdIgnored (embedLen s) := by
  unfold embedLen
  rw [apply_ite setCmdIgnored, ← finish_setCmdIgnored]
  rfl

theorem embedScan_setCmdIgnored (s : State) : embedScan (setCmdIgnored s) = setCmdIgnored (embedScan s) := by
  unfold embedScan
  dsimp only
  rw [apply_ite setCmdIgnored, apply_ite setCmdIgnored, ← finish_setCmdIgnored]
  rfl

theorem embedCap_setCmdIgnored (s : State) : embedCap (setCmdIgnored s) = setCmdIgnored (embedCap s) := by
  unfold embedCap
  rw [apply_ite setCmdIgnored, ← finish_setCmdIgnored]
  rfl

theorem embedFetch_setCmdIgnored (s : State) : embedFetch (setCmdIgnored s) = setCmdIgnored (embedFetch s) := by
  have hread : embedPayloadRead (setCmdIgnored s) = embedPayloadRead s := rfl
  unfold embedFetch
  rw [hread]
  split <;> rfl

theorem embedWrite_setCmdIgnored (s : State) : embedWrite (setCmdIgnored s) = setCmdIgnored (embedWrite s) := by
  unfold embedWrite
  rw [embedFetch_setCmdIgnored]
  dsimp only
  rw [apply_ite setCmdIgnored, ← finish_setCmdIgnored]
  rfl

theorem placeBit_setCmdIgnored (b : Bool) (s : State) :
    placeBit b (setCmdIgnored s) = setCmdIgnored (placeBit b s) := by
  unfold placeBit
  rw [apply_ite setCmdIgnored, apply_ite setCmdIgnored]
  rfl

theorem extractEnd_setCmdIgnored (s : State) : extractEnd (setCmdIgnored s) = setCmdIgnored (extractEnd s) :=
  finish_setCmdIgnored _ s

theorem extractAct_setCmdIgnored (s : State) : extractAct (setCmdIgnored s) = setCmdIgnored (extractAct s) := by
  have hbyte : completeByte (setCmdIgnored s).k = completeByte s.k := rfl
  unfold extractAct
  rw [hbyte]
  cases completeByte s.k with
  | none =>
    dsimp only
    simp only [apply_ite setCmdIgnored, ← finish_setCmdIgnored]
    rfl
  | some p =>
    dsimp only
    simp only [apply_ite setCmdIgnored, ← finish_setCmdIgnored, ← extractEnd_setCmdIgnored]
    rfl

theorem extractPlace_setCmdIgnored (b : Bool) (s : State) :
    extractAct (placeBit b (setCmdIgnored s)) = setCmdIgnored (extractAct (placeBit b s)) := by
  rw [placeBit_setCmdIgnored, extractAct_setCmdIgnored]

theorem extractBits_setCmdIgnored (s : State) : extractBits (setCmdIgnored s) = setCmdIgnored (extractBits s) := by
  unfold extractBits
  rw [apply_ite setCmdIgnored]
  refine ite_congr rfl (fun _ => extractPlace_setCmdIgnored _ (engineRead s (redAddr s s.k)).2) fun _ => ?_
  rw [setCmdIgnored_sTM]
  cases s.sTM with
  | error => exact finish_setCmdIgnored .truncatedImage s
  | zeroFill => exact extractPlace_setCmdIgnored false s

theorem engineStep_setCmdIgnored (s : State) : engineStep (setCmdIgnored s) = setCmdIgnored (engineStep s) := by
  unfold engineStep
  rw [setCmdIgnored_phase]
  cases s.phase with
  | idle => rfl
  | eLen => exact embedLen_setCmdIgnored s
  | eScan => exact embedScan_setCmdIgnored s
  | eCap => exact embedCap_setCmdIgnored s
  | eWrite => exact embedWrite_setCmdIgnored s
  | xBits => exact extractBits_setCmdIgnored s

/-- An ignored command does not disturb the engine (42_host_access R172). -/
theorem engineTurn_setCmdIgnored (s : State) : engineTurn (setCmdIgnored s) = setCmdIgnored (engineTurn s) := by
  have hstuck : engineStuck (setCmdIgnored s) = engineStuck s := rfl
  unfold engineTurn
  rw [setCmdIgnored_rst, hstuck, engineStep_setCmdIgnored, apply_ite setCmdIgnored]

/-- Settles O50: a busy block ignores the word and its engine does not look at CMD_IGNORED; after `Finish` the block is
idle. -/
theorem commandCompletionRaceHasBothOrders : Obligations.CommandCompletionRaceHasBothOrders := by
  unfold Obligations.CommandCompletionRaceHasBothOrders
  exact fun s hbusy hidle => ⟨fun w hw => command_of_busy hbusy hw, engineTurn_setCmdIgnored s,
    command_embed_of_idle hidle, command_extract_of_idle hidle, fun w hw => command_of_reserved hw (engineTurn s)⟩

/-! ## When the engine waits -/

/-- A step of a running operation changes the phase, or moves EMBED's scan or the stream index (70_reset_and_hazards
R227). -/
theorem engineStep_moves {s : State} (hidle : s.phase ≠ .idle) :
    (engineStep s).phase ≠ s.phase ∨ (engineStep s).j = s.j + 1 ∨ (engineStep s).k = s.k + 1 := by
  unfold engineStep
  cases hp : s.phase with
  | idle => exact absurd hp hidle
  | eLen =>
    left
    dsimp only [embedLen]
    split <;> simp
  | eScan =>
    dsimp only [embedScan]
    split
    · exact .inl nofun
    · split
      · exact .inl nofun
      · exact .inr (.inl rfl)
  | eCap =>
    left
    dsimp only [embedCap]
    split <;> simp
  | eWrite => exact .inr (.inr (embedWrite_k s))
  | xBits =>
    rcases extractBits_cases s with ⟨-, heq⟩ | ⟨-, b, c, heq⟩ <;> dsimp only <;> rw [heq]
    · exact .inl nofun
    · exact .inr (.inr (by simp))

theorem engineTurn_ne_self {s : State} (hidle : s.phase ≠ .idle) (hrst : s.rst = false)
    (hstuck : engineStuck s = false) : engineTurn s ≠ s := by
  have hturn : engineTurn s = engineStep s := by simp [engineTurn, hrst, hstuck]
  intro h
  have hmoves := engineStep_moves hidle
  rw [← hturn, h] at hmoves
  simp at hmoves

theorem engineTurn_of_rst {s : State} (h : s.rst = true) : engineTurn s = s := by
  simp [engineTurn, h]

theorem engineTurn_of_stuck {s : State} (h : engineStuck s = true) : engineTurn s = s := by
  simp [engineTurn, h]

theorem engineAccesses_of_idle {s : State} (h : s.phase = .idle) : engineAccesses s = [] := by
  rw [engineAccesses, h]

theorem busy_of_stuck {s : State} (h : engineStuck s = true) : s.busy = true := by
  rw [State.busy_eq_true]
  intro hidle
  simp [engineStuck, engineAccesses_of_idle hidle] at h

/-- Whether the engine is stuck depends on the operation and the platform alone. -/
theorem engineStuck_of_operation_eq {s u : State} (h : u.operation = s.operation) : engineStuck u = engineStuck s :=
  (congrArg engineStuck h :)

/-- No event but the assertion of `rst` frees a stuck engine (93_implementation_defined U4). -/
theorem step_of_stuck {s t : State} (hstuck : engineStuck s = true) (h : step s = .next t)
    (hrst : s.script.head? ≠ some .rstAssert) : engineStuck t = true := by
  obtain ⟨u, hop, ht⟩ := step_of_busy h (busy_of_stuck hstuck) hrst
  have hu : engineStuck u = true := (engineStuck_of_operation_eq hop).trans hstuck
  rcases ht with rfl | rfl
  · exact hu
  · rwa [engineTurn_of_stuck hu]

/-! ## Every event answers a next state -/

theorem exists_command (w : Word) (s : State) : ∃ t : State, command w s = .next t := by
  rcases command_cases w s with ⟨-, h⟩ | ⟨-, -, h⟩ | ⟨-, -, h⟩ | ⟨-, -, h⟩ <;> exact ⟨_, h⟩

theorem exists_hostRegWrite (off : BitVec 6) (size : AccessSize) (v : Word) (s : State) :
    ∃ t : State, hostRegWrite off size v s = .next t := by
  rcases hostRegWrite_cases off size v s with
    h | ⟨-, -, ⟨-, h⟩ | ⟨-, h⟩ | ⟨-, h⟩ | ⟨-, h⟩ | ⟨-, h⟩ | ⟨-, h⟩ | ⟨-, h⟩ | ⟨-, h⟩⟩
  case inr.inl =>
    rw [h]
    exact exists_command v s
  all_goals exact ⟨_, h⟩

theorem exists_runEvent (e : Event) (s : State) : ∃ t : State, runEvent e s = .next t := by
  cases e with
  | regWrite off size v => exact exists_hostRegWrite off size v s
  | busWrite addr size v =>
    dsimp only [runEvent]
    split
    · exact exists_hostRegWrite _ size v s
    · exact ⟨_, rfl⟩
  | busRead | waitDone | waitIrq =>
    dsimp only [runEvent]
    split <;> exact ⟨_, rfl⟩
  | regRead | memRead | memWrite | memPost | drain | fence | engine | rstAssert | rstRelease => exact ⟨_, rfl⟩

/-- The machine never stops (70_reset_and_hazards R227). -/
theorem exists_step (s : State) : ∃ t : State, step s = .next t := by
  unfold step
  split
  · exact ⟨_, rfl⟩
  · exact exists_runEvent _ _

/-! ## The host does not move a running operation -/

/-- From `s` to `t` the running operation and `rst` stay as they are. -/
def KeepsOperation (s t : State) : Prop := t.operation = s.operation ∧ t.rst = s.rst

theorem hostRegRead_keepsOperation (off : BitVec 6) (size : AccessSize) (s : State) :
    KeepsOperation s (hostRegRead off size s) := by
  refine ⟨operation_eq_of_block_eq (hostRegRead_block off size s), ?_⟩
  unfold hostRegRead
  split
  · dsimp only
    split <;> rfl
  · rfl

theorem command_rst {w : Word} {s t : State} (h : command w s = .next t) : t.rst = s.rst := by
  rcases command_cases w s with ⟨-, hc⟩ | ⟨-, -, hc⟩ | ⟨-, -, hc⟩ | ⟨-, -, hc⟩ <;>
    · rw [hc] at h
      cases h
      rfl

theorem hostRegWrite_rst {off : BitVec 6} {size : AccessSize} {v : Word} {s t : State}
    (h : hostRegWrite off size v s = .next t) : t.rst = s.rst := by
  rcases hostRegWrite_cases off size v s with
    hw | ⟨-, -, ⟨-, hw⟩ | ⟨-, hw⟩ | ⟨-, hw⟩ | ⟨-, hw⟩ | ⟨-, hw⟩ | ⟨-, hw⟩ | ⟨-, hw⟩ | ⟨-, hw⟩⟩ <;> rw [hw] at h
  case inr.inl => exact command_rst h
  all_goals
    cases h
    rfl

theorem hostRegWrite_keepsOperation {off : BitVec 6} {size : AccessSize} {v : Word} {s t : State}
    (hb : s.busy = true) (h : hostRegWrite off size v s = .next t) : KeepsOperation s t :=
  ⟨hostRegWrite_operation hb h, hostRegWrite_rst h⟩

theorem OnlyHostMemoryAccess.keepsOperation {s t : State} (h : OnlyHostMemoryAccess s t) : KeepsOperation s t := by
  unfold OnlyHostMemoryAccess at h
  rw [h]
  exact ⟨rfl, rfl⟩

/-- No transaction of the host or of the platform moves a running operation (42_host_access R172, R175, R176). -/
theorem runEvent_keepsOperation {e : Event} {s t : State} (hb : s.busy = true)
    (he : e ∉ [Event.engine, .waitDone, .waitIrq, .rstAssert, .rstRelease]) (h : runEvent e s = .next t) :
    KeepsOperation s t := by
  obtain ⟨-, -, -, -, -, -, hmemory⟩ := hostMemoryAccessLeavesTheBlock
  cases e with
  | regWrite off size v => exact hostRegWrite_keepsOperation hb h
  | busWrite addr size v =>
    simp only [runEvent] at h
    split at h
    · exact hostRegWrite_keepsOperation hb h
    · cases h
      exact ⟨rfl, rfl⟩
  | regRead off size =>
    cases h
    exact hostRegRead_keepsOperation off size s
  | busRead addr size =>
    simp only [runEvent] at h
    split at h <;> cases h
    · exact hostRegRead_keepsOperation _ size s
    · exact ⟨rfl, rfl⟩
  | memRead | memWrite | memPost | drain | fence =>
    exact OnlyHostMemoryAccess.keepsOperation (hmemory s t _ (by simp) h)
  | engine | waitDone | waitIrq | rstAssert | rstRelease => simp at he

/-- Settles O24: a turn is nothing where the engine is idle, in reset or stuck, and moves the operation elsewhere; of
the events, only turns of the engine and `rst` move a running operation. -/
theorem engineWaitsWhenIdleInResetOrStuck : Obligations.EngineWaitsWhenIdleInResetOrStuck := by
  unfold Obligations.EngineWaitsWhenIdleInResetOrStuck
  refine ⟨?idle, ?reset, ?stuck, ?progress, exists_step, ?host⟩
  case idle => exact fun s hp => ⟨engineTurn_of_idle hp, engineAccesses_of_idle hp⟩
  case reset => exact fun s hrst => engineTurn_of_rst hrst
  case stuck =>
    intro s t hstuck h hrst
    have hstill := step_of_stuck hstuck h hrst
    exact ⟨engineTurn_of_stuck hstuck, busy_of_stuck hstill, hstill⟩
  case progress => exact fun s hidle hrst hstuck => engineTurn_ne_self hidle hrst hstuck
  case host =>
    intro s t e hb he h
    obtain ⟨hop, hrst⟩ := runEvent_keepsOperation hb he h
    exact ⟨(congrArg State.phase hop :), (congrArg State.k hop :), (congrArg State.j hop :), hrst,
      engineStuck_of_operation_eq hop⟩

end Sys2Proof.Machine
